-- ==== Sys2Proof/Word.lean ====
section
/-! DEFINITION. The word types of TLSH-CORE: every width the spec gives a register (spec/00_scope.md R8, R10). -/

namespace Sys2Proof

/-- An unsigned integer 0..255 (R10). -/
abbrev Byte := BitVec 8

/-- Half a byte: one hex digit, one ratio (R10). -/
abbrev Nibble := BitVec 4

/-- A command word, `CMD_W` = 16 bits (R59). -/
abbrev Word := BitVec 16

/-- A histogram counter, `CNT_W` = 35 bits (R25). -/
abbrev Counter := BitVec 35

/-- The byte counter, `LEN_W` = 32 bits (R27). -/
abbrev Length := BitVec 32

end Sys2Proof
end

