-- ==== Sys2Proof/Config.lean ====
section
/-! DEFINITION. What the spec leaves open as a parameter of the hardware: the permutation table `SBOX` and the per-code
distance `PD` (spec/00_scope.md R8). Both are constants without a body: a claim holds for every table the spec allows. -/

namespace Sys2Proof

/-- The values `PD[1]`, `PD[2]`, `PD[3]`, each held as its excess over 1, so that the constraint `1 <= PD[d] <= 15` of
R8 and R137 holds of every value of the type. `PD[0]` is 0 and is not stored. -/
structure PerCodeDistance where
  excess1 : Fin 15
  excess2 : Fin 15
  excess3 : Fin 15
  deriving DecidableEq, Repr, Inhabited

namespace Config

/-- `SBOX` (R8, R79): some permutation of the bytes, which one is open. Log entry 1. -/
opaque sbox : Equiv.Perm Byte

/-- `PD` (R8, R137): some legal per-code distance, which one is open. Log entry 2. -/
opaque pd : PerCodeDistance

/-- The default `PD = [0, 1, 2, 6]` that R8 marks as general knowledge: used by tests and by statements that name it,
never by the machine. -/
def defaultPd : PerCodeDistance := ⟨0, 1, 5⟩

end Config

end Sys2Proof
end

