-- ==== Sys2Proof/Syntax.lean ====
section
/-! DEFINITION. The eleven commands of TLSH-CORE, one constructor for each row of spec/opcode_table.json
(spec/30_encoding.md R61). -/

namespace Sys2Proof

/-- The digest registers `D0` and `D1`, chosen by the selector bit `s` (R16, R60). -/
inductive DigestReg where
  | d0
  | d1
  deriving DecidableEq, Repr

/-- A command with its operands, each of the width its field has (R60, R64). -/
inductive Instr where
  /-- `NOP` (R81). -/
  | nop
  /-- `CLR` (R82). -/
  | clr
  /-- `FEED b`: `b` is the input byte (R84). -/
  | feed (b : Byte)
  /-- `FIN d`: `d` is the destination digest register (R110). -/
  | fin (d : DigestReg)
  /-- `HRD i`: `i` is a bucket index (R90). -/
  | hrd (i : Byte)
  /-- `LDB v`: `v` is one wire-format byte (R121). -/
  | ldb (v : Byte)
  /-- `LDX c`: `c` is one ASCII character code (R122). -/
  | ldx (c : Byte)
  /-- `LDC d`: `d` is the destination digest register (R123). -/
  | ldc (d : DigestReg)
  /-- `RDB d, i`: `i` is a wire-byte index (R124). -/
  | rdb (d : DigestReg) (i : Byte)
  /-- `RDX d, i`: `i` is a text-character index (R125). -/
  | rdx (d : DigestReg) (i : Byte)
  /-- `CMP l`: `l` is the include-length flag (R142). -/
  | cmp (l : Bool)
  deriving DecidableEq, Repr

end Sys2Proof
end

