-- ==== Sys2Proof/WellFormed.lean ====
section
/-! DEFINITION. What makes a 16-bit word a command word: the must-be-zero checks of spec/30_encoding.md R62, one named
check each, and the range checks on a command's operands (R64, R73). -/

namespace Sys2Proof

namespace WordCheck

/-- `op` is one of 0x0 to 0xA; 0xB to 0xF are reserved (R65). -/
def opcodeAssigned (w : Word) : Bool := (w >>> 12).toNat ≤ 10

/-- `rsv`, bits 11:9, is 0 in every command (R62). -/
def reservedClear (w : Word) : Bool := w &&& 0x0E00#16 == 0#16

/-- The opcodes whose selector bit `s` must be 0: `NOP`, `CLR`, `FEED`, `HRD`, `LDB`, `LDX` (R62). -/
def selectorMustBeZero (op : Nat) : Bool := [0, 1, 2, 4, 5, 6].contains op

/-- `s`, bit 8, is 0 where it must be (R62). -/
def selectorAllowed (w : Word) : Bool := !selectorMustBeZero (w >>> 12).toNat || w &&& 0x0100#16 == 0#16

/-- The opcodes whose `imm` must be 0: `NOP`, `CLR`, `FIN`, `LDC`, `CMP` (R62). -/
def immediateMustBeZero (op : Nat) : Bool := [0, 1, 3, 7, 10].contains op

/-- `imm`, bits 7:0, is 0 where it must be (R62). -/
def immediateAllowed (w : Word) : Bool := !immediateMustBeZero (w >>> 12).toNat || w &&& 0x00FF#16 == 0#16

end WordCheck

/-- A word that breaks none of the rules of R62 and R65. -/
def wordWellFormed (w : Word) : Bool :=
  WordCheck.opcodeAssigned w && WordCheck.reservedClear w && WordCheck.selectorAllowed w && WordCheck.immediateAllowed w

/-- A command with its operands in field range (R73: `d`, `l` in 0..1, every byte operand in 0..255). The operand types
of `Instr` are exactly these ranges, so no term breaks one: log entry 23. -/
def Instr.wellFormed : Instr → Bool
  | .nop => true
  | .clr => true
  | .feed b => b.toNat ≤ 255
  | .fin _ => true
  | .hrd i => i.toNat ≤ 255
  | .ldb v => v.toNat ≤ 255
  | .ldx c => c.toNat ≤ 255
  | .ldc _ => true
  | .rdb _ i => i.toNat ≤ 255
  | .rdx _ i => i.toNat ≤ 255
  | .cmp _ => true

end Sys2Proof
end

