-- ==== Sys2Proof/Decode.lean ====
section
/-! DEFINITION. The decoder of spec/30_encoding.md R63, total on all 65536 words, and after it the encoder of R68. -/

namespace Sys2Proof

/-- `op`, bits 15:12 (R60). -/
def opField (w : Word) : BitVec 4 := w.extractLsb' 12 4

/-- `rsv`, bits 11:9 (R60). -/
def rsvField (w : Word) : BitVec 3 := w.extractLsb' 9 3

/-- `s`, bit 8 (R60). -/
def selectorField (w : Word) : Bool := w.getLsbD 8

/-- `imm`, bits 7:0 (R60). -/
def immField (w : Word) : Byte := w.extractLsb' 0 8

/-- The selector bit as a digest register number (R60, R64). -/
def digestRegOf : Bool → DigestReg
  | false => .d0
  | true => .d1

/-- Why a word is not a command. Each of them is the one ILLEGAL of R63. -/
inductive Reject where
  /-- `op` is 0xB to 0xF (R65). -/
  | reservedOpcode
  /-- `rsv` is not 0 (R62). -/
  | reservedBits
  /-- `s` or `imm` is not 0 where it must be (R62). -/
  | mustBeZero
  deriving DecidableEq, Repr

/-- The command `i` if the must-be-zero test `ok` holds. -/
def acceptIf (ok : Bool) (i : Instr) : Except Reject Instr := if ok then .ok i else .error .mustBeZero

/-- The decoder (R63). -/
def decode (w : Word) : Except Reject Instr :=
  let s := selectorField w
  let imm := immField w
  if rsvField w ≠ 0#3 then .error .reservedBits
  else match (opField w).toNat with
    | 0 => acceptIf (!s && imm == 0#8) .nop
    | 1 => acceptIf (!s && imm == 0#8) .clr
    | 2 => acceptIf (!s) (.feed imm)
    | 3 => acceptIf (imm == 0#8) (.fin (digestRegOf s))
    | 4 => acceptIf (!s) (.hrd imm)
    | 5 => acceptIf (!s) (.ldb imm)
    | 6 => acceptIf (!s) (.ldx imm)
    | 7 => acceptIf (imm == 0#8) (.ldc (digestRegOf s))
    | 8 => .ok (.rdb (digestRegOf s) imm)
    | 9 => .ok (.rdx (digestRegOf s) imm)
    | 10 => acceptIf (imm == 0#8) (.cmp s)
    | _ => .error .reservedOpcode

/-- A digest register number as the selector bit. -/
def selectorOf : DigestReg → Bool
  | .d0 => false
  | .d1 => true

/-- The one format of R60: `op`, `rsv = 0`, `s`, `imm`, from bit 15 down. -/
def assemble (op : BitVec 4) (s : Bool) (imm : Byte) : Word := op ++ 0#3 ++ BitVec.ofBool s ++ imm

/-- The encoder: the table of R68. -/
def encode : Instr → Word
  | .nop => assemble 0x0 false 0
  | .clr => assemble 0x1 false 0
  | .feed b => assemble 0x2 false b
  | .fin d => assemble 0x3 (selectorOf d) 0
  | .hrd i => assemble 0x4 false i
  | .ldb v => assemble 0x5 false v
  | .ldx c => assemble 0x6 false c
  | .ldc d => assemble 0x7 (selectorOf d) 0
  | .rdb d i => assemble 0x8 (selectorOf d) i
  | .rdx d i => assemble 0x9 (selectorOf d) i
  | .cmp l => assemble 0xA l 0

/-- The mnemonic of a command, as the opcode table spells it. -/
def mnemonic : Instr → String
  | .nop => "NOP"
  | .clr => "CLR"
  | .feed _ => "FEED"
  | .fin _ => "FIN"
  | .hrd _ => "HRD"
  | .ldb _ => "LDB"
  | .ldx _ => "LDX"
  | .ldc _ => "LDC"
  | .rdb _ _ => "RDB"
  | .rdx _ _ => "RDX"
  | .cmp _ => "CMP"

/-- One row of the opcode map of R61: a word `w` is the row's command iff `w AND mask = match`. -/
structure OpcodeRow where
  name : String
  matchBits : Word
  maskBits : Word
  deriving DecidableEq, Repr

/-- The opcode map of R61, with the columns `match` and `mask`. -/
def opcodeRows : List OpcodeRow :=
  [⟨"NOP", 0x0000, 0xFFFF⟩, ⟨"CLR", 0x1000, 0xFFFF⟩, ⟨"FEED", 0x2000, 0xFF00⟩, ⟨"FIN", 0x3000, 0xFEFF⟩,
   ⟨"HRD", 0x4000, 0xFF00⟩, ⟨"LDB", 0x5000, 0xFF00⟩, ⟨"LDX", 0x6000, 0xFF00⟩, ⟨"LDC", 0x7000, 0xFEFF⟩] ++
  [⟨"RDB", 0x8000, 0xFE00⟩, ⟨"RDX", 0x9000, 0xFE00⟩, ⟨"CMP", 0xA000, 0xFEFF⟩]

/-- The word `w` is the command of the row. -/
def OpcodeRow.hit (r : OpcodeRow) (w : Word) : Bool := w &&& r.maskBits == r.matchBits

/-- The command word that holds the `nbits` low bits of `w`, every bit above them 0. A command is one 16-bit word (R59),
so there are no later words to lay out. -/
def tableWord (nbits w : Nat) : Word := BitVec.ofNat 16 (w % 2 ^ nbits)

/-- The instruction the decoder reads from an instruction whose bits are `w`, numbered as spec/opcode_table.json numbers
them. -/
def decodeTableWord (nbits w : Nat) : Option Instr := (decode (tableWord nbits w)).toOption

end Sys2Proof
end

