-- ==== Sys2Proof/Machine/State.lean ====
section
/-! DEFINITION. The architectural state of spec/10_state.md R15 as plain data, exactly its components (`Arch`) with the
values after reset (R39); beside it, the state of the whole system the host's interface runs (`State`): the hardware and what
the host is about to do at its ports (log entry 3); and the two types of reasons to stop. -/

namespace Sys2Proof.Machine

/-- `PHASE` (R23): 0 = Accumulating, 1 = Finalized. -/
inductive Phase where
  | accumulating
  | finalized
  deriving DecidableEq, Repr

/-- The content of one digest register, with the unswapped field values (R16). -/
@[ext]
structure Digest where
  /-- checksum -/
  ck : Byte
  /-- lengthCode -/
  lc : Byte
  /-- qRatio: q1Ratio in bits 7:4, q2Ratio in bits 3:0 -/
  qr : Byte
  /-- body, `body[0]` first in the wire format -/
  body : Vector Byte 32
  deriving DecidableEq, Repr

/-- The zero digest `ZERO` (spec/42_finalize.md R109). -/
def Digest.zero : Digest := ⟨0, 0, 0, Vector.replicate 32 0⟩

/-- The fault codes a refused command records (spec/60_exceptions.md R146). -/
inductive FaultCode where
  /-- 1: the word does not decode to a command. -/
  | illegal
  /-- 2: `FEED` or `FIN` in phase Finalized. -/
  | phase
  /-- 3: `FEED` with the byte counter at its maximum. -/
  | overflow
  /-- 4: `RDB` or `RDX` with an index out of range. -/
  | index
  /-- 5: a digest register read while its valid bit is 0. -/
  | invalid
  /-- 6: malformed or wrong-length digest input. -/
  | parse
  deriving DecidableEq, Repr

/-- What the host can do at the ports (spec/70_reset_and_hazards.md R182). -/
inductive HostAction where
  /-- Assert `rst` between commands. -/
  | rst
  /-- Issue a 16-bit word on the command port. -/
  | issue (w : Word)
  /-- Read the status-port register of this number. -/
  | readStatus (n : BitVec 3)
  deriving DecidableEq, Repr

/-- Reasons to stop with a fault: none. A fault of the spec is a recorded refusal of one command after which the engine
goes on (R152), so it is a next state; "the hardware has no stuck state and no hang" (R162). Nobody raises one (safe). -/
inductive Fault where
  deriving DecidableEq, Repr

/-- Reasons to answer with no meaning. -/
inductive Refusal where
  /-- The instruction named has no meaning yet. Raised only by an arm of `exec`; no arm does so now. Safe. -/
  | notModelled (mnemonic : String)
  deriving DecidableEq, Repr

/-- The architectural state: the tuple of R15 "and nothing else". -/
@[ext]
structure Arch where
  /-- `HIST[0..255]` (R25) -/
  hist : Vector Counter 256
  /-- `W[0..4]`, newest first (R26) -/
  window : Vector Byte 5
  /-- `LEN` (R27) -/
  len : Length
  /-- `CKSUM` (R28) -/
  cksum : Byte
  /-- `PHASE` (R23) -/
  phase : Phase
  /-- `D[0]` (R16) -/
  d0 : Digest
  /-- `D[1]` (R16) -/
  d1 : Digest
  /-- `DV[0]` (R17) -/
  dv0 : Bool
  /-- `DV[1]` (R17) -/
  dv1 : Bool
  /-- `LBUF[0..34]` (R29) -/
  lbuf : Vector Byte 35
  /-- `LPOS` (R29) -/
  lpos : BitVec 7
  /-- `LBAD` (R29) -/
  lbad : Bool
  /-- `DOUT` (R30) -/
  dout : Byte
  /-- `HOUT` (R31) -/
  hout : Counter
  /-- `DIST` (R32) -/
  dist : BitVec 16
  /-- `ERR` (R33) -/
  err : BitVec 8
  /-- `LERR` (R34) -/
  lerr : BitVec 4
  deriving DecidableEq, Repr

/-- The hardware after `rst`: every state element is zero (R39, R165). -/
def Arch.reset : Arch where
  hist := Vector.replicate 256 0
  window := Vector.replicate 5 0
  len := 0
  cksum := 0
  phase := .accumulating
  d0 := Digest.zero
  d1 := Digest.zero
  dv0 := false
  dv1 := false
  lbuf := Vector.replicate 35 0
  lpos := 0
  lbad := false
  dout := 0
  hout := 0
  dist := 0
  err := 0
  lerr := 0

/-- The hardware together with the host that drives it: the architectural state, and the commands and other port actions
still to come, which the spec gives as an input of the step and not as state (R21). Log entry 3. -/
@[ext]
structure State extends Arch where
  /-- What the host does next at the ports, oldest first. -/
  pending : List HostAction
  deriving DecidableEq, Repr

/-- The hardware after `rst`, and a host with nothing to do yet (log entry 3). -/
def State.reset : State := { Arch.reset with pending := [] }

end Sys2Proof.Machine
end

