-- ==== Sys2Proof/Machine/Ops.lean ====
section
/-! DEFINITION. The shared operations: the primitives `MemRead` and `MemWrite` (spec/00_scope.md R12), the updates of the
state, raising a fault (spec/60_exceptions.md R150), completing a command (R151), and what the host does at the ports
(spec/70_reset_and_hazards.md R182). -/

namespace Sys2Proof.Machine

/-- The outcome of one command. -/
abbrev Result := Host.Outcome State Fault Refusal

/-! ### Storage primitives (spec/20_memory.md R41, R47): one whole element, named by its index -/

/-- `MemRead(SBOX, x)` (R43). -/
def memReadSbox (x : Byte) : Byte := Config.sbox x

/-- The per-code distance the comparator uses (spec/44_comparator.md R137). -/
def configuredPd : PerCodeDistance := Config.pd

/-- `MemRead(HIST, i)`: every byte is a valid bucket (R42). -/
def memReadHist (h : Vector Counter 256) (i : Byte) : Counter := h[i.toNat]'i.isLt

/-- `MemWrite(HIST, i, v)`. -/
def memWriteHist (h : Vector Counter 256) (i : Byte) (v : Counter) : Vector Counter 256 := h.set i.toNat v i.isLt

/-- `MemRead(LBUF, i)`. The loader forms only indices below 35 (R121, R122). -/
def memReadLbuf (buf : Vector Byte 35) (i : Nat) : Byte := buf.getD i 0

/-- `MemWrite(LBUF, i, v)`. The loader forms only indices below 35 (R121, R122). -/
def memWriteLbuf (buf : Vector Byte 35) (i : Nat) (v : Byte) : Vector Byte 35 := buf.setIfInBounds i v

/-! ### Digest registers (spec/10_state.md R16, R17) -/

/-- `D[d]`. -/
def Arch.digest (d : DigestReg) (s : Arch) : Digest :=
  match d with
  | .d0 => s.d0
  | .d1 => s.d1

/-- `DV[d] = 1`. -/
def Arch.valid (d : DigestReg) (s : Arch) : Bool :=
  match d with
  | .d0 => s.dv0
  | .d1 => s.dv1

/-- `D[d] <- g; DV[d] <- 1`: a digest register is written whole, and its valid bit with it (R17, R18). -/
def Arch.putDigest (d : DigestReg) (g : Digest) (s : Arch) : Arch :=
  match d with
  | .d0 => { s with d0 := g, dv0 := true }
  | .d1 => { s with d1 := g, dv1 := true }

/-! ### Accumulator -/

/-- The window shift of R83: `b` becomes the newest byte, the oldest is dropped. -/
def shiftWindow (w : Vector Byte 5) (b : Byte) : Vector Byte 5 := #v[b, w[0], w[1], w[2], w[3]]

/-- `W <- shift(W, b); LEN <- LEN + 1` (R84). -/
def Arch.consume (b : Byte) (s : Arch) : Arch := { s with window := shiftWindow s.window b, len := s.len + 1 }

/-- `CKSUM <- c`. -/
def Arch.setCksum (c : Byte) (s : Arch) : Arch := { s with cksum := c }

/-- `HIST <- h`. -/
def Arch.setHist (h : Vector Counter 256) (s : Arch) : Arch := { s with hist := h }

/-- `PHASE <- p`. -/
def Arch.setPhase (p : Phase) (s : Arch) : Arch := { s with phase := p }

/-- The zero state of the accumulator (R82). -/
def Arch.clearAccumulator (s : Arch) : Arch :=
  { s with hist := Vector.replicate 256 0, window := Vector.replicate 5 0, len := 0, cksum := 0, phase := .accumulating }

/-! ### Loader and result registers -/

/-- `LBUF <- buf`. -/
def Arch.setLbuf (buf : Vector Byte 35) (s : Arch) : Arch := { s with lbuf := buf }

/-- `LPOS <- p`. -/
def Arch.setLpos (p : BitVec 7) (s : Arch) : Arch := { s with lpos := p }

/-- `LBAD <- b`. -/
def Arch.setLbad (b : Bool) (s : Arch) : Arch := { s with lbad := b }

/-- `DOUT <- v`. -/
def Arch.setDout (v : Byte) (s : Arch) : Arch := { s with dout := v }

/-- `HOUT <- v`. -/
def Arch.setHout (v : Counter) (s : Arch) : Arch := { s with hout := v }

/-- `DIST <- v`. -/
def Arch.setDist (v : BitVec 16) (s : Arch) : Arch := { s with dist := v }

/-! ### Raising a fault and completing a command (spec/60_exceptions.md R150, R151) -/

/-- The code of a fault (R146). -/
def FaultCode.code : FaultCode → BitVec 4
  | .illegal => 1
  | .phase => 2
  | .overflow => 3
  | .index => 4
  | .invalid => 5
  | .parse => 6

/-- The bit of `ERR` that belongs to a fault code (R33). -/
def FaultCode.errBit (c : FaultCode) : BitVec 8 := 1#8 <<< c.code.toNat

/-- `ERR[c] <- 1; LERR <- c`, which is all `raise Fault(c)` does before it ends the command (R150). There is nothing to
return from: the next command executes as usual from the state this leaves (R152). -/
def Arch.raise (c : FaultCode) (s : Arch) : Arch := { s with err := s.err ||| c.errBit, lerr := c.code }

/-- `LERR <- 0`: the command completes without a fault (R151). -/
def Arch.complete (s : Arch) : Arch := { s with lerr := 0 }

/-! ### The ports (spec/70_reset_and_hazards.md R182) -/

/-- The hardware goes to the state `a`; the host's side is as it was. -/
def State.commit (s : State) (a : Arch) : Result := .next { s with toArch := a }

/-- What the host still has to do. -/
def State.setPending (l : List HostAction) (s : State) : State := { s with pending := l }

/-- The host's oldest action, and the state with that action taken off. Log entry 3. -/
def State.nextAction (s : State) : Option (HostAction × State) :=
  match s.pending with
  | [] => none
  | a :: rest => some (a, s.setPending rest)

/-- The word is the very next thing the host does. -/
def State.present (w : Word) (s : State) : State := s.setPending (.issue w :: s.pending)

/-- `rst` (R165): every architectural element to its reset value. What the host goes on to do is the host's own (log
entry 6). -/
def assertReset (s : State) : Result := s.commit Arch.reset

/-- Between commands the engine holds its state (R161). Log entry 4. -/
def holdState (s : State) : Result := .next s

/-- A word that decodes to no command (R65): `Fault(ILLEGAL)` and no other effect. -/
def takeIllegal (s : State) : Result := s.commit (s.raise .illegal)

end Sys2Proof.Machine
end

