-- ==== Sys2Proof/Machine/Flags.lean ====
section
/-! DEFINITION. The flags (spec/10_state.md R23, R24), the tests the commands make on them, and the status port with the
`STATUS` view (R35, R36). -/

namespace Sys2Proof.Machine

/-- `PHASE = 1`. -/
def Arch.finalized (s : Arch) : Bool := s.phase == .finalized

/-- `PRIMED`: `LEN >= 5` (R24, R35). -/
def Arch.primed (s : Arch) : Bool := 5 ≤ s.len.toNat

/-- The byte counter is at its maximum `2^32 - 1` (R27). -/
def Arch.lenFull (s : Arch) : Bool := s.len == 0xFFFFFFFF#32

/-- `LPOS` is odd: half a byte is pending (R121). -/
def Arch.halfByte (s : Arch) : Bool := s.lpos.toNat % 2 == 1

/-- All 70 digit positions are filled, or more (R121, R122). -/
def Arch.loadFull (s : Arch) : Bool := 70 ≤ s.lpos.toNat

/-- The load may be committed: `LBAD = 0` and `LPOS = 70` (R123). -/
def Arch.loadComplete (s : Arch) : Bool := !s.lbad && s.lpos == 70#7

/-- `PHASE` as a bit. -/
def Phase.bit : Phase → Bool
  | .accumulating => false
  | .finalized => true

/-- The `STATUS` view (R35), from bit 15 down: `LERR`, `LPOS`, `LBAD`, `DV1`, `DV0`, `PRIMED`, `PHASE`. -/
def statusView (s : Arch) : BitVec 16 :=
  s.lerr ++ s.lpos ++ BitVec.ofBool s.lbad ++ BitVec.ofBool s.dv1 ++ BitVec.ofBool s.dv0 ++ BitVec.ofBool s.primed ++
    BitVec.ofBool s.phase.bit

/-- `ERR` as it reads: bits 0 and 7 are hard-wired 0 (R33, R36). Log entry 12. -/
def errView (s : Arch) : BitVec 8 := s.err &&& 0x7E#8

/-- The status port (R36): the register of each number as one unsigned integer (R50); number 7 is reserved and reads as 0.
Log entry 7. -/
def statusPort (n : BitVec 3) (s : Arch) : Nat :=
  match n.toNat with
  | 0 => (statusView s).toNat
  | 1 => (errView s).toNat
  | 2 => s.len.toNat
  | 3 => s.cksum.toNat
  | 4 => s.dout.toNat
  | 5 => s.hout.toNat
  | 6 => s.dist.toNat
  | _ => 0

end Sys2Proof.Machine
end

