-- ==== Sys2Proof/Machine/Accumulator.lean ====
section
/-! DEFINITION. SubstitutionHash (spec/40_subst_hash.md) and the WindowAccumulator commands `NOP`, `CLR`, `FEED`, `HRD`
(spec/41_accumulator.md). What depends on `SBOX` takes the table as an argument `T`; the machine gives it `memReadSbox`. -/

namespace Sys2Proof.Machine

/-- `H(s, a, b, c)` (R75). -/
def substHash (T : Byte → Byte) (s a b c : Byte) : Byte :=
  let h1 := T (s ^^^ a)
  let h2 := T (h1 ^^^ b)
  T (h2 ^^^ c)

/-- The six bucket indices of one accumulation step, in the order of the rows of R86 (salts 2, 3, 5, 7, 11, 13). -/
def bucketIndices (T : Byte → Byte) (w : Vector Byte 5) : List Byte :=
  [substHash T 2 w[0] w[1] w[2],
   substHash T 3 w[0] w[1] w[3],
   substHash T 5 w[0] w[2] w[3],
   substHash T 7 w[0] w[2] w[4],
   substHash T 11 w[0] w[1] w[4],
   substHash T 13 w[0] w[3] w[4]]

/-- `HIST[i] <- HIST[i] + 1` (R85). -/
def bump (h : Vector Counter 256) (i : Byte) : Vector Counter 256 := memWriteHist h i (memReadHist h i + 1)

/-- Increments one after another, so that a bucket named twice goes up by 2 (spec/20_memory.md R53). -/
def bumpAll (h : Vector Counter 256) (is : List Byte) : Vector Counter 256 := is.foldl bump h

/-- `accstep()` (R85), on the window that already holds the new byte; the checksum hash uses the old `CKSUM`. -/
def accStep (T : Byte → Byte) (s : Arch) : Arch :=
  (s.setCksum (substHash T 0 s.window[0] s.window[1] s.cksum)).setHist (bumpAll s.hist (bucketIndices T s.window))

/-- What a successful `FEED b` does to the accumulator: shift, count, and one accumulation step once five bytes are in
(R84, R87). -/
def absorb (T : Byte → Byte) (b : Byte) (s : Arch) : Arch :=
  let s' := s.consume b
  if s'.primed then accStep T s' else s'

/-- `NOP` on the hardware (R81). -/
def nopEffect (s : Arch) : Arch := s.complete

/-- `CLR` on the hardware (R82). -/
def clrEffect (s : Arch) : Arch := s.clearAccumulator.complete

/-- `FEED b` on the hardware, with the table `T` (R84). -/
def feedEffect (T : Byte → Byte) (b : Byte) (s : Arch) : Arch :=
  if s.finalized then s.raise .phase
  else if s.lenFull then s.raise .overflow
  else (absorb T b s).complete

/-- `HRD i` on the hardware (R90). -/
def hrdEffect (i : Byte) (s : Arch) : Arch := (s.setHout (memReadHist s.hist i)).complete

/-- `NOP` (R81). -/
def execNop (s : State) : Result := s.commit (nopEffect s.toArch)

/-- `CLR` (R82). -/
def execClr (s : State) : Result := s.commit (clrEffect s.toArch)

/-- `FEED b` (R84). -/
def execFeed (b : Byte) (s : State) : Result := s.commit (feedEffect memReadSbox b s.toArch)

/-- `HRD i` (R90). -/
def execHrd (i : Byte) (s : State) : Result := s.commit (hrdEffect i s.toArch)

end Sys2Proof.Machine
end

