-- ==== Sys2Proof/Machine/Operands.lean ====
section
/-! DEFINITION. Operand forms: the hex digits of spec/43_digest_codec.md R120, the index ranges of
spec/30_encoding.md R64, the nibble swap (R116), and the wire and text formats (R115, R117, R119). -/

namespace Sys2Proof.Machine

/-- The high nibble `b[7:4]` (R10). -/
def highNibble (b : Byte) : Nibble := b.extractLsb' 4 4

/-- The low nibble `b[3:0]` (R10). -/
def lowNibble (b : Byte) : Nibble := b.extractLsb' 0 4

/-- `swap(x) = {x[3:0], x[7:4]}` (R116). -/
def swap (x : Byte) : Byte := lowNibble x ++ highNibble x

/-- `hexval(c)` (R120): the value of a hex digit of either case, none for the other 234 codes. -/
def hexVal (c : Byte) : Option Nibble :=
  let n := c.toNat
  if 0x30 ≤ n ∧ n ≤ 0x39 then some (BitVec.ofNat 4 (n - 0x30))
  else if 0x41 ≤ n ∧ n ≤ 0x46 then some (BitVec.ofNat 4 (n - 0x41 + 10))
  else if 0x61 ≤ n ∧ n ≤ 0x66 then some (BitVec.ofNat 4 (n - 0x61 + 10))
  else none

/-- `hexchar(n)` (R120): the lower-case digit. Log entry 11. -/
def hexChar (n : Nibble) : Byte :=
  if n.toNat ≤ 9 then BitVec.ofNat 8 (0x30 + n.toNat) else BitVec.ofNat 8 (0x57 + n.toNat)

/-- Byte `i` of the wire format (R115, R48): swapped checksum, swapped length code, ratio byte, then the body. -/
def wireByte (g : Digest) (i : Nat) : Byte :=
  match i with
  | 0 => swap g.ck
  | 1 => swap g.lc
  | 2 => g.qr
  | k + 3 => g.body.getD k 0

/-- `wire(g)` (R115): the 35 bytes of the wire format. -/
def wire (g : Digest) : Vector Byte 35 := Vector.ofFn fun i => wireByte g i.val

/-- `unwire(B)` (R117). -/
def unwire (B : Vector Byte 35) : Digest where
  ck := swap B[0]
  lc := swap B[1]
  qr := B[2]
  body := Vector.ofFn fun i => B[3 + i.val]

/-- Character `i` of the text format (R119, R129): the high nibble of a wire byte at an even index, the low one at an odd
index. -/
def textChar (g : Digest) (i : Nat) : Byte :=
  let b := (wire g).getD (i / 2) 0
  hexChar (if i % 2 = 0 then highNibble b else lowNibble b)

/-- `text(g)` (R129): the 70 characters. -/
def text (g : Digest) : List Byte := (List.range 70).map (textChar g)

/-- `i` is no wire-byte index: above 34 (R124). -/
def wireIndexBad (i : Byte) : Bool := 34 < i.toNat

/-- `i` is no text-character index: above 69 (R125). -/
def textIndexBad (i : Byte) : Bool := 69 < i.toNat

end Sys2Proof.Machine
end

