-- ==== Sys2Proof/Machine/Codec.lean ====
section
/-! DEFINITION. The digest codec commands `LDB`, `LDX`, `LDC`, `RDB`, `RDX` (spec/43_digest_codec.md). -/

namespace Sys2Proof.Machine

/-- A step of a load that cannot succeed: `LBAD <- 1` and `Fault(PARSE)`; `LBUF` and `LPOS` unchanged (R121, R122). -/
def Arch.spoilLoad (s : Arch) : Arch := (s.setLbad true).raise .parse

/-- The loader is ready for a new load: `LPOS <- 0; LBAD <- 0` (R123). -/
def Arch.closeLoad (s : Arch) : Arch := (s.setLpos 0).setLbad false

/-- `LDB v` on the hardware (R121). -/
def ldbEffect (v : Byte) (s : Arch) : Arch :=
  if s.lbad || s.halfByte || s.loadFull then s.spoilLoad
  else ((s.setLbuf (memWriteLbuf s.lbuf (s.lpos.toNat / 2) v)).setLpos (s.lpos + 2)).complete

/-- The byte of `LBUF` after one more hex digit `n`: the high nibble first with the low one cleared, then the low nibble
(R122). -/
def loadedNibble (s : Arch) (n : Nibble) : Byte :=
  if s.halfByte then memReadLbuf s.lbuf (s.lpos.toNat / 2) ||| n.setWidth 8 else n.setWidth 8 <<< 4

/-- `LDX c` on the hardware (R122). -/
def ldxEffect (c : Byte) (s : Arch) : Arch :=
  match hexVal c with
  | none => s.spoilLoad
  | some n =>
    if s.lbad || s.loadFull then s.spoilLoad
    else ((s.setLbuf (memWriteLbuf s.lbuf (s.lpos.toNat / 2) (loadedNibble s n))).setLpos (s.lpos + 1)).complete

/-- `LDC d` on the hardware (R123). -/
def ldcEffect (d : DigestReg) (s : Arch) : Arch :=
  if s.loadComplete then (s.closeLoad.putDigest d (unwire s.lbuf)).complete
  else s.closeLoad.raise .parse

/-- `RDB d, i` on the hardware (R124): the index is tested first. -/
def rdbEffect (d : DigestReg) (i : Byte) (s : Arch) : Arch :=
  if wireIndexBad i then s.raise .index
  else if !s.valid d then s.raise .invalid
  else (s.setDout ((wire (s.digest d)).getD i.toNat 0)).complete

/-- `RDX d, i` on the hardware (R125): the index is tested first. -/
def rdxEffect (d : DigestReg) (i : Byte) (s : Arch) : Arch :=
  if textIndexBad i then s.raise .index
  else if !s.valid d then s.raise .invalid
  else (s.setDout (textChar (s.digest d) i.toNat)).complete

/-- `LDB v` (R121). -/
def execLdb (v : Byte) (s : State) : Result := s.commit (ldbEffect v s.toArch)

/-- `LDX c` (R122). -/
def execLdx (c : Byte) (s : State) : Result := s.commit (ldxEffect c s.toArch)

/-- `LDC d` (R123). -/
def execLdc (d : DigestReg) (s : State) : Result := s.commit (ldcEffect d s.toArch)

/-- `RDB d, i` (R124). -/
def execRdb (d : DigestReg) (i : Byte) (s : State) : Result := s.commit (rdbEffect d i s.toArch)

/-- `RDX d, i` (R125). -/
def execRdx (d : DigestReg) (i : Byte) (s : State) : Result := s.commit (rdxEffect d i s.toArch)

end Sys2Proof.Machine
end

