-- ==== Sys2Proof/Machine/Comparator.lean ====
section
/-! DEFINITION. DigestComparator and the `CMP` command (spec/44_comparator.md), in exact natural numbers. What depends on
`PD` takes it as an argument `P`; the machine gives it `configuredPd`. -/

namespace Sys2Proof.Machine

/-- `|x - y|` (spec/00_scope.md R11). -/
def absDiff (x y : Nat) : Nat := if x ≤ y then y - x else x - y

/-- `modDiff(x, y, R)` (R133). -/
def modDiff (x y R : Nat) : Nat := min (absDiff x y) (R - absDiff x y)

/-- `lenTerm(a, b, l)` (R134). -/
def lenTerm (a b : Digest) (l : Bool) : Nat :=
  let ld := modDiff a.lc.toNat b.lc.toNat 256
  if !l then 0 else if ld ≤ 1 then ld else 12 * ld

/-- `ratioTerm(x, y)` (R135). -/
def ratioTerm (x y : Nibble) : Nat :=
  let rd := modDiff x.toNat y.toNat 16
  if rd ≤ 1 then rd else 12 * (rd - 1)

/-- `ckTerm` (R136). -/
def ckTerm (a b : Digest) : Nat := if a.ck = b.ck then 0 else 1

/-- `PD[n]` (R137, spec/00_scope.md R8). -/
def perCodeDistance (P : PerCodeDistance) (n : Nat) : Nat :=
  match n with
  | 0 => 0
  | 1 => P.excess1.val + 1
  | 2 => P.excess2.val + 1
  | _ => P.excess3.val + 1

/-- `pcd(u, v) = PD[|u - v|]` (R137). -/
def codeDistance (P : PerCodeDistance) (u v : BitVec 2) : Nat := perCodeDistance P (absDiff u.toNat v.toNat)

/-- `BPD[x][y]` (R138), computed on demand (spec/20_memory.md R44). -/
def bitPairDistance (P : PerCodeDistance) (x y : Byte) : Nat :=
  ([0, 1, 2, 3].map fun j => codeDistance P (x.extractLsb' (2 * j) 2) (y.extractLsb' (2 * j) 2)).sum

/-- `bodyTerm` (R139). -/
def bodyTerm (P : PerCodeDistance) (a b : Digest) : Nat :=
  (List.zipWith (bitPairDistance P) a.body.toList b.body.toList).sum

/-- `distance(a, b, l)` (R140). -/
def distance (P : PerCodeDistance) (a b : Digest) (l : Bool) : Nat :=
  lenTerm a b l + ratioTerm (highNibble a.qr) (highNibble b.qr) + ratioTerm (lowNibble a.qr) (lowNibble b.qr) +
    ckTerm a b + bodyTerm P a b

/-- `CMP l` on the hardware, with the per-code distance `P` (R142). -/
def cmpEffect (P : PerCodeDistance) (l : Bool) (s : Arch) : Arch :=
  if !s.dv0 || !s.dv1 then s.raise .invalid
  else (s.setDist (BitVec.ofNat 16 (distance P s.d0 s.d1 l))).complete

/-- `CMP l` (R142). -/
def execCmp (l : Bool) (s : State) : Result := s.commit (cmpEffect configuredPd l s.toArch)

end Sys2Proof.Machine
end

