-- ==== Sys2Proof/Machine/Finalize.lean ====
section
/-! DEFINITION. QuartileSelector, DigestEncoder and the `FIN` command (spec/42_finalize.md). Counters enter as the unsigned
integers they are, so that every product and quotient is exact (R104, R114). -/

namespace Sys2Proof.Machine

/-! ### Quartiles -/

/-- The 128 effective counters `HIST[0..127]` (R97). -/
def effective (h : Vector Counter 256) : List Nat := (h.toList.take 128).map BitVec.toNat

/-- The three quartile values, which exist only inside `FIN` (spec/10_state.md R37). -/
structure Quartiles where
  q1 : Nat
  q2 : Nat
  q3 : Nat
  deriving DecidableEq, Repr

/-- The values at ranks 31, 63 and 95 of a list (R96). -/
def ranked (S : List Nat) : Quartiles := ⟨S.getD 31 0, S.getD 63 0, S.getD 95 0⟩

/-- The quartiles: the ranks 31, 63, 95 of the ascending sort (R96). Log entry 9. -/
def quartiles (h : Vector Counter 256) : Quartiles := ranked ((effective h).insertionSort (· ≤ ·))

/-! ### The reference procedure of R98
`hi` and `j` of the rule are held as the index one past them, so that they stay natural numbers. Each loop has the fuel
128, which no loop over 128 elements uses up. Log entry 9. -/

/-- `while SCR[i] < p: i = i + 1`. -/
def scanUp (a : List Nat) (p : Nat) : Nat → Nat → Nat
  | 0, i => i
  | fuel + 1, i => if a.getD i 0 < p then scanUp a p fuel (i + 1) else i

/-- `while SCR[j] > p: j = j - 1`, on `jEnd = j + 1`. -/
def scanDown (a : List Nat) (p : Nat) : Nat → Nat → Nat
  | 0, jEnd => jEnd
  | fuel + 1, jEnd => if p < a.getD (jEnd - 1) 0 then scanDown a p fuel (jEnd - 1) else jEnd

/-- `swap SCR[i], SCR[j]`. -/
def exchange (a : List Nat) (i j : Nat) : List Nat := (a.set i (a.getD j 0)).set j (a.getD i 0)

/-- The Hoare partition loop `while i <= j`. -/
def hoare (p : Nat) : Nat → List Nat → Nat → Nat → List Nat × Nat × Nat
  | 0, a, i, jEnd => (a, i, jEnd)
  | fuel + 1, a, i, jEnd =>
    if i < jEnd then
      let i' := scanUp a p 128 i
      let j' := scanDown a p 128 jEnd
      if i' < j' then hoare p fuel (exchange a i' (j' - 1)) (i' + 1) (j' - 1) else hoare p fuel a i' j'
    else (a, i, jEnd)

/-- `select(lo, hi, k)`, on `hiEnd = hi + 1`. -/
def selectRank (k : Nat) : Nat → List Nat → Nat → Nat → List Nat
  | 0, a, _, _ => a
  | fuel + 1, a, lo, hiEnd =>
    if lo + 1 < hiEnd then
      let r := hoare (a.getD ((lo + (hiEnd - 1)) / 2) 0) 128 a lo hiEnd
      if k < r.2.2 then selectRank k fuel r.1 lo r.2.2
      else if r.2.1 ≤ k then selectRank k fuel r.1 r.2.1 hiEnd
      else r.1
    else a

/-- `quartiles()` of R98: the median first, then the two quartiles inside the boundaries the median search left. -/
def referenceQuartiles (h : Vector Counter 256) : Quartiles :=
  let a := selectRank 63 128 (effective h) 0 128
  let b := selectRank 31 128 a 0 63
  let c := selectRank 95 128 b 64 128
  ⟨b.getD 31 0, a.getD 63 0, c.getD 95 0⟩

/-! ### Length code, ratios, body -/

/-- The thresholds `LCT[0..170]` (R102). -/
def lengthCodeThresholds : List Nat :=
  [1, 2, 3, 4, 6, 8, 12, 18, 26, 39, 58, 87] ++
  [130, 195, 292, 438, 657, 855, 1111, 1444, 1877, 2440, 3172, 3476] ++
  [3824, 4206, 4627, 5089, 5598, 6158, 6773, 7451, 8196, 9015, 9917, 10908] ++
  [11999, 13199, 14519, 15971, 17568, 19324, 21257, 23383, 25721, 28293, 31122, 34234] ++
  [37657, 41423, 45565, 50122, 55134, 60647, 66712, 73383, 80722, 88794, 97673, 107440] ++
  [118184, 130003, 143003, 157303, 173033, 190337, 209370, 230307, 253338, 278672, 306539, 337192] ++
  [370912, 408003, 448803, 493683, 543052, 597357, 657092, 722801, 795082, 874590, 962049, 1058253] ++
  [1164079, 1280486, 1408535, 1549388, 1704327, 1874760, 2062236, 2268459, 2495305, 2744836, 3019319, 3321251] ++
  [3653376, 4018714, 4420585, 4862644, 5348908, 5883799, 6472179, 7119396, 7831336, 8614470, 9475916, 10423508] ++
  [11465859, 12612445, 13873689, 15261058, 16787164, 18465880, 20312468, 22343715, 24578086, 27035895, 29739484, 32713432] ++
  [35984776, 39583253, 43541578, 47895736, 52685310, 57953841, 63749225, 70124147, 77136562, 84850218, 93335240, 102668763] ++
  [112935640, 124229204, 136652124, 150317336, 165349070, 181883977, 200072375, 220079612, 242087573, 266296331, 292925964, 322218560] ++
  [354440416, 389884458, 428872904, 471760194, 518936214, 570829835, 627912819, 690704101, 759774511, 835751962, 919327159, 1011259875] ++
  [1112385862, 1223624449, 1345986894, 1480585583, 1628644142, 1791508556, 1970659412, 2167725354, 2384497890, 2622947679, 2885242448, 3173766693] ++
  [3491143363, 3840257700, 4224283471]

/-- `lencode(n)`: the largest `k` with `LCT[k] <= n` (R102), for `1 <= n < 2^32`. Log entry 14. -/
def lencode (n : Nat) : Nat := (lengthCodeThresholds.takeWhile (· ≤ n)).length - 1

/-- `((q * 100) div q3) mod 16` (R104). -/
def ratio (q q3 : Nat) : Nibble := BitVec.ofNat 4 (q * 100 / q3 % 16)

/-- `qRatio` (R105): q1Ratio in the high nibble, q2Ratio in the low one. -/
def ratioByte (q : Quartiles) : Byte := ratio q.q1 q.q3 ++ ratio q.q2 q.q3

/-- The 2-bit code of a counter value; the tests are made in this order (R106). -/
def code (q : Quartiles) (c : Nat) : BitVec 2 :=
  if c ≤ q.q1 then 0 else if c ≤ q.q2 then 1 else if c ≤ q.q3 then 2 else 3

/-- The byte of group `g`: bucket `4g + j` lands in bits `2j+1 : 2j` (R107). -/
def groupByte (q : Quartiles) (h : Vector Counter 256) (g : Nat) : Byte :=
  [0, 1, 2, 3].foldl (fun v j => v ||| (code q (h.getD (4 * g + j) 0).toNat).setWidth 8 <<< (2 * j)) 0

/-- The body: group `g` is `body[31 - g]` (R107). -/
def bodyOf (q : Quartiles) (h : Vector Counter 256) : Vector Byte 32 := Vector.ofFn fun i => groupByte q h (31 - i.val)

/-- `MINLEN` (spec/00_scope.md R7). -/
def minLength : Nat := 50

/-- The digest of the accumulator: `ZERO` when the input is too small or the histogram degenerate (R100, R109), else the
record of R110. -/
def digestOf (s : Arch) : Digest :=
  if s.len.toNat < minLength then Digest.zero
  else
    let q := quartiles s.hist
    if q.q3 = 0 then Digest.zero
    else ⟨s.cksum, BitVec.ofNat 8 (lencode s.len.toNat), ratioByte q, bodyOf q s.hist⟩

/-- `FIN d` on the hardware (R110). The accumulator is kept (R111, log entry 10). -/
def finEffect (d : DigestReg) (s : Arch) : Arch :=
  if s.finalized then s.raise .phase
  else ((s.putDigest d (digestOf s)).setPhase .finalized).complete

/-- `FIN d` (R110). -/
def execFin (d : DigestReg) (s : State) : Result := s.commit (finEffect d s.toArch)

end Sys2Proof.Machine
end

