-- ==== Sys2Proof/Machine/Dispatch.lean ====
section
/-! DEFINITION. The dispatch: one arm per command, each one direct call of its meaning. -/

namespace Sys2Proof.Machine

def exec (i : Instr) (s : State) : Host.Outcome State Fault Refusal :=
  match i with
  | .nop => Sys2Proof.Machine.execNop s
  | .clr => Sys2Proof.Machine.execClr s
  | .feed b => Sys2Proof.Machine.execFeed b s
  | .fin d => Sys2Proof.Machine.execFin d s
  | .hrd j => Sys2Proof.Machine.execHrd j s
  | .ldb v => Sys2Proof.Machine.execLdb v s
  | .ldx c => Sys2Proof.Machine.execLdx c s
  | .ldc d => Sys2Proof.Machine.execLdc d s
  | .rdb d j => Sys2Proof.Machine.execRdb d j s
  | .rdx d j => Sys2Proof.Machine.execRdx d j s
  | .cmp l => Sys2Proof.Machine.execCmp l s

end Sys2Proof.Machine
end

