-- ==== Sys2Proof/Machine/Step.lean ====
section
/-! DEFINITION. One step of the hardware and its host: the host's oldest action at the ports (spec/70_reset_and_hazards.md R182). A command word is
decoded and executed when it arrives (spec/10_state.md R21); a word that is no command is taken as ILLEGAL (R65). -/

namespace Sys2Proof.Machine

/-- One step of the machine. It answers a next state for every state (spec/60_exceptions.md R162). On the hardware, the
step of an issued word is `commandStep`, which takes the word as its input (R21). -/
def step (s : State) : Host.Outcome State Fault Refusal :=
  match s.nextAction with
  | none => holdState s
  | some (.rst, s') => assertReset s'
  | some (.readStatus _, s') => holdState s'
  | some (.issue w, s') =>
    match decode w with
    | .ok i => exec i s'
    | .error _ => takeIllegal s'

/-- The host issues the instruction whose bits are `w`, numbered as spec/opcode_table.json numbers them, before anything
else it does. Log entry 5. -/
def State.withFetchWord (s : State) (nbits w : Nat) : State := s.present (tableWord nbits w)

end Sys2Proof.Machine
end

