-- ==== Sys2Proof/Machine/Command.lean ====
section
/-! DEFINITION. The hardware by itself: the step function that takes the command as an input (spec/10_state.md R21) and,
for every architectural state and every 16-bit word, answers the next architectural state (spec/60_exceptions.md R162). -/

namespace Sys2Proof.Machine

/-- What a command does to the architectural state. -/
def perform (i : Instr) (s : Arch) : Arch :=
  match i with
  | .nop => nopEffect s
  | .clr => clrEffect s
  | .feed b => feedEffect memReadSbox b s
  | .fin d => finEffect d s
  | .hrd j => hrdEffect j s
  | .ldb v => ldbEffect v s
  | .ldx c => ldxEffect c s
  | .ldc d => ldcEffect d s
  | .rdb d j => rdbEffect d j s
  | .rdx d j => rdxEffect d j s
  | .cmp l => cmpEffect configuredPd l s

/-- The step function of the hardware: one 16-bit word on the command port, decoded and executed when it arrives (R21,
R63); a word that is no command raises `ILLEGAL` (R65). -/
def commandStep (w : Word) (s : Arch) : Arch :=
  match decode w with
  | .ok i => perform i s
  | .error _ => s.raise .illegal

/-- The end state of a program: the step of one command folded over its words (spec/30_encoding.md R72). -/
def runWords (ws : List Word) (s : Arch) : Arch := ws.foldl (fun s w => commandStep w s) s

end Sys2Proof.Machine
end

