-- ==== Sys2Proof/Machine/Pseudo.lean ====
section
/-! DEFINITION. The pseudo-instructions of spec/30_encoding.md R69, each a list of commands, and the assembler text of
R68. -/

namespace Sys2Proof.Machine

/-- `FEEDS`: one `FEED` per byte, in order. -/
def feeds (bs : List Byte) : List Instr := bs.map .feed

/-- `LDXS`: one `LDX` per character, in order. -/
def ldxs (cs : List Byte) : List Instr := cs.map .ldx

/-- `LDBS`: one `LDB` per byte, in order. -/
def ldbs (vs : List Byte) : List Instr := vs.map .ldb

/-- `PARSE Dd, "hex"`. -/
def parseText (d : DigestReg) (cs : List Byte) : List Instr := ldxs cs ++ [.ldc d]

/-- `HASHBUF Dd, bytes`. -/
def hashbuf (d : DigestReg) (bs : List Byte) : List Instr := .clr :: (feeds bs ++ [.fin d])

/-- `DIFF l, bytesA, bytesB`. -/
def diff (l : Bool) (as bs : List Byte) : List Instr := hashbuf .d0 as ++ hashbuf .d1 bs ++ [.cmp l]

/-- `RDTEXT Dd`: the 70 `RDX` commands, after each of which the host reads `DOUT`. -/
def rdtext (d : DigestReg) : List Instr := (List.range 70).map fun i => .rdx d (BitVec.ofNat 8 i)

/-- `D0` or `D1` in assembler text. -/
def digestRegName : DigestReg → String
  | .d0 => "D0"
  | .d1 => "D1"

/-- The assembler syntax of a command (R68), numbers in decimal. -/
def assemblerText : Instr → String
  | .nop => "NOP"
  | .clr => "CLR"
  | .feed b => "FEED " ++ toString b.toNat
  | .fin d => "FIN " ++ digestRegName d
  | .hrd i => "HRD " ++ toString i.toNat
  | .ldb v => "LDB " ++ toString v.toNat
  | .ldx c => "LDX " ++ toString c.toNat
  | .ldc d => "LDC " ++ digestRegName d
  | .rdb d i => "RDB " ++ digestRegName d ++ ", " ++ toString i.toNat
  | .rdx d i => "RDX " ++ digestRegName d ++ ", " ++ toString i.toNat
  | .cmp l => "CMP " ++ toString l.toNat

end Sys2Proof.Machine
end

