-- ==== Sys2Proof/Safety.lean ====
section
/-! DEFINITION. Runs of a command list (spec/30_encoding.md R72, spec/70_reset_and_hazards.md R181), the record of refused
commands (spec/60_exceptions.md R153), and the invariants of spec/10_state.md R40. -/

namespace Sys2Proof.Machine

/-- Executing a command list: the commands one after another (R72). -/
def runCommands : List Instr → State → Result
  | [], s => .next s
  | i :: is, s =>
    match exec i s with
    | .next t => runCommands is t
    | .fault r => .fault r
    | .refused r => .refused r

/-- No command has been refused since the last reset (R153). -/
def Arch.noFaultRecorded (s : Arch) : Bool := errView s == 0#8

/-- The sum of all 256 counters (R40 a). -/
def histSum (h : Vector Counter 256) : Nat := (h.toList.map BitVec.toNat).sum

/-- The invariants of R40 (a), (b), (c), (e), (f), (g), with what R26 and R87 say of a window that is not primed. -/
structure Arch.Inv (s : Arch) : Prop where
  /-- R40 (a) -/
  sum_eq : histSum s.hist = 6 * (s.len.toNat - 4)
  /-- R40 (b) -/
  counter_le : ∀ i : Fin 256, s.hist[i].toNat ≤ 6 * (2 ^ 32 - 5)
  /-- R26: the positions of `W` not yet filled hold 0 -/
  window_unfilled : ∀ j : Fin 5, s.len.toNat ≤ j.val → s.window[j] = 0
  /-- R87: `CKSUM` stays 0 until the window is primed -/
  cksum_unprimed : s.len.toNat < 5 → s.cksum = 0
  /-- R40 (c) -/
  lpos_le : s.lpos.toNat ≤ 70
  /-- R40 (e) -/
  err_hardwired : s.err.getLsbD 0 = false ∧ s.err.getLsbD 7 = false
  /-- R36: `LERR` is 0..6 -/
  lerr_le : s.lerr.toNat ≤ 6
  /-- R40 (f) -/
  lerr_recorded : s.lerr ≠ 0 → s.err.getLsbD s.lerr.toNat = true
  /-- R40 (g) -/
  finalized_valid : s.phase = .finalized → s.dv0 = true ∨ s.dv1 = true

/-! ### The terms of the claims -/

/-- The 22 ASCII codes of the hex digits (spec/43_digest_codec.md R120): `0-9`, `A-F`, `a-f`. -/
def hexDigitCodes : List Nat :=
  [0x30, 0x31, 0x32, 0x33, 0x34, 0x35, 0x36, 0x37, 0x38, 0x39] ++ [0x41, 0x42, 0x43, 0x44, 0x45, 0x46] ++
    [0x61, 0x62, 0x63, 0x64, 0x65, 0x66]

/-- The legality matrix (spec/60_exceptions.md R163) read in the order of R149: the fault a command raises, if any. -/
def matrixFault : Instr → Arch → Option FaultCode
  | .nop, _ => none
  | .clr, _ => none
  | .feed _, s =>
    if s.phase = .finalized then some .phase else if s.len.toNat = 2 ^ 32 - 1 then some .overflow else none
  | .fin _, s => if s.phase = .finalized then some .phase else none
  | .hrd _, _ => none
  | .ldb _, s => if s.lbad = true ∨ s.lpos.toNat % 2 = 1 ∨ s.lpos.toNat ≥ 70 then some .parse else none
  | .ldx c, s => if s.lbad = true ∨ c.toNat ∉ hexDigitCodes ∨ s.lpos.toNat ≥ 70 then some .parse else none
  | .ldc _, s => if s.lbad = true ∨ s.lpos.toNat ≠ 70 then some .parse else none
  | .rdb d i, s => if i.toNat > 34 then some .index else if s.valid d = false then some .invalid else none
  | .rdx d i, s => if i.toNat > 69 then some .index else if s.valid d = false then some .invalid else none
  | .cmp _, s => if s.dv0 = false ∨ s.dv1 = false then some .invalid else none

/-- The accumulator is in its zero state (R82). -/
def Arch.accumulatorZero (s : Arch) : Prop :=
  s.hist = Vector.replicate 256 0 ∧ s.window = Vector.replicate 5 0 ∧ s.len = 0 ∧ s.cksum = 0 ∧ s.phase = .accumulating

/-- The two states hold the same accumulator: `HIST`, `W`, `LEN`, `CKSUM`, `PHASE` (R15). -/
def Arch.sameAccumulator (s t : Arch) : Prop :=
  s.hist = t.hist ∧ s.window = t.window ∧ s.len = t.len ∧ s.cksum = t.cksum ∧ s.phase = t.phase

/-- The two states hold the same loader: `LBUF`, `LPOS`, `LBAD` (R15). -/
def Arch.sameLoader (s t : Arch) : Prop := s.lbuf = t.lbuf ∧ s.lpos = t.lpos ∧ s.lbad = t.lbad

/-- The two states hold the same digest registers and valid bits (R15). -/
def Arch.sameDigests (s t : Arch) : Prop := s.d0 = t.d0 ∧ s.d1 = t.d1 ∧ s.dv0 = t.dv0 ∧ s.dv1 = t.dv1

/-- The two states hold the same result registers: `DOUT`, `HOUT`, `DIST` (R15). -/
def Arch.sameResults (s t : Arch) : Prop := s.dout = t.dout ∧ s.hout = t.hout ∧ s.dist = t.dist

/-- No load is in progress (spec/43_digest_codec.md R126). -/
def Arch.loaderReady (s : Arch) : Prop := s.lpos = 0 ∧ s.lbad = false

/-- The window positions of an input, in order: for `p = 4 .. n-1` the bytes `b[p], b[p-1], .. b[p-4]`
(spec/41_accumulator.md R91). -/
def windowPositions (bs : List Byte) : List (Vector Byte 5) :=
  (List.range (bs.length - 4)).map fun q =>
    #v[bs.getD (q + 4) 0, bs.getD (q + 3) 0, bs.getD (q + 2) 0, bs.getD (q + 1) 0, bs.getD q 0]

/-- `hist[i]` of `acc(bs)` (R91): how often bucket `i` is named over all window positions. -/
def inputCount (T : Byte → Byte) (bs : List Byte) (i : Byte) : Nat :=
  ((windowPositions bs).flatMap fun w =>
    [substHash T 2 w[0] w[1] w[2], substHash T 3 w[0] w[1] w[3], substHash T 5 w[0] w[2] w[3],
     substHash T 7 w[0] w[2] w[4], substHash T 11 w[0] w[1] w[4], substHash T 13 w[0] w[3] w[4]]).count i

/-- `ck` of `acc(bs)` (R91). -/
def inputChecksum (T : Byte → Byte) (bs : List Byte) : Byte :=
  (windowPositions bs).foldl (fun ck w => substHash T 0 w[0] w[1] ck) 0

/-- `S` is the 128 effective counters, given by `count`, in non-decreasing order (spec/42_finalize.md R96). -/
def sortsEffective (S : List Nat) (count : Nat → Nat) : Prop :=
  S.Perm ((List.range 128).map count) ∧ S.Pairwise (· ≤ ·)

/-- `g` is the digest of a non-degenerate input with the sorted effective counters `S`, checksum `ck`, length `n` and
counters `count` (spec/42_finalize.md R104 to R108, R110). The length code is given by its two thresholds (R102). -/
structure IsDigestOf (g : Digest) (S : List Nat) (ck : Byte) (n : Nat) (count : Nat → Nat) : Prop where
  ck_eq : g.ck = ck
  lc_low : lengthCodeThresholds.getD g.lc.toNat (2 ^ 32) ≤ n
  lc_high : n < lengthCodeThresholds.getD (g.lc.toNat + 1) (2 ^ 32)
  q1_ratio : g.qr.toNat / 16 = S.getD 31 0 * 100 / S.getD 95 0 % 16
  q2_ratio : g.qr.toNat % 16 = S.getD 63 0 * 100 / S.getD 95 0 % 16
  body_code : ∀ k : Fin 32, ∀ j : Fin 4, g.body[31 - k.val].toNat / 4 ^ j.val % 4 =
    (if count (4 * k.val + j.val) ≤ S.getD 31 0 then 0 else if count (4 * k.val + j.val) ≤ S.getD 63 0 then 1
      else if count (4 * k.val + j.val) ≤ S.getD 95 0 then 2 else 3)

end Sys2Proof.Machine
end

