-- ==== Sys2Proof/Certificates/Slice0/Obligations.lean ====
section
/-! DEFINITION. The statements about TLSH-CORE, one for each entry of OBLIGATIONS.json. Each docstring names the rules of
spec/ it formalises. Statements about `FEED` and `CMP` hold for every permutation `SBOX` and every legal `PD`, because
`Config.sbox` and `Config.pd` have no body. -/

open Sys2Proof Sys2Proof.Machine

/-! ### Encoding -/

/-- R68, sanity: words written out from the encoding table stand for the commands they spell; others are no command. (The
spec has one ILLEGAL for all of these, R63, R65; that the decoder names a reason, and which one, is the model's own choice,
log entry 18.) -/
def Obligations.SpelledWordsDecode : Prop :=
  decode 0x0000 = .ok .nop ∧ decode 0x1000 = .ok .clr ∧ decode 0x2054 = .ok (.feed 0x54) ∧
  decode 0x3100 = .ok (.fin .d1) ∧ decode 0x404B = .ok (.hrd 0x4B) ∧ decode 0x50FC = .ok (.ldb 0xFC) ∧
  decode 0x6066 = .ok (.ldx 0x66) ∧ decode 0x7100 = .ok (.ldc .d1) ∧ decode 0x8122 = .ok (.rdb .d1 34) ∧
  decode 0x9045 = .ok (.rdx .d0 69) ∧ decode 0xA100 = .ok (.cmp true) ∧
  decode 0x8200 = .error .reservedBits ∧ decode 0x2100 = .error .mustBeZero ∧ decode 0x3001 = .error .mustBeZero ∧
  decode 0xB000 = .error .reservedOpcode

/-- R68: the word of every command, as a number. -/
def Obligations.CommandWordValues : Prop :=
  (encode .nop).toNat = 0x0000 ∧ (encode .clr).toNat = 0x1000 ∧
  (∀ b, (encode (.feed b)).toNat = 0x2000 + b.toNat) ∧
  (∀ d, (encode (.fin d)).toNat = 0x3000 + 0x100 * (selectorOf d).toNat) ∧
  (∀ i, (encode (.hrd i)).toNat = 0x4000 + i.toNat) ∧
  (∀ v, (encode (.ldb v)).toNat = 0x5000 + v.toNat) ∧
  (∀ c, (encode (.ldx c)).toNat = 0x6000 + c.toNat) ∧
  (∀ d, (encode (.ldc d)).toNat = 0x7000 + 0x100 * (selectorOf d).toNat) ∧
  (∀ d i, (encode (.rdb d i)).toNat = 0x8000 + 0x100 * (selectorOf d).toNat + i.toNat) ∧
  (∀ d i, (encode (.rdx d i)).toNat = 0x9000 + 0x100 * (selectorOf d).toNat + i.toNat) ∧
  (∀ l, (encode (.cmp l)).toNat = 0xA000 + 0x100 * l.toNat)

/-- R73: decoding undoes encoding for every command, and encoding undoes decoding for every word that is a command. -/
def Obligations.DecodeEncodeRoundTrip : Prop :=
  (∀ i : Instr, i.wellFormed = true → decode (encode i) = .ok i) ∧
  (∀ (w : Word) (i : Instr), decode w = .ok i → encode i = w)

/-- R61: a word is the command of a row of the opcode map if and only if `w AND mask = match`, and its operands are the
selector bit and the low byte as they stand; R62: it is a command at all if and only if its opcode is assigned and it breaks
none of the must-be-zero rules. -/
def Obligations.DecodeFollowsOpcodeMap : Prop :=
  (∀ w : Word, ∀ r ∈ opcodeRows, r.hit w = true ↔ ∃ i, decode w = .ok i ∧ mnemonic i = r.name) ∧
  (∀ (w : Word) (i : Instr), decode w = .ok i →
    match i with
    | .nop => True
    | .clr => True
    | .feed b => b = w.extractLsb' 0 8
    | .fin d => selectorOf d = w.getLsbD 8
    | .hrd j => j = w.extractLsb' 0 8
    | .ldb v => v = w.extractLsb' 0 8
    | .ldx c => c = w.extractLsb' 0 8
    | .ldc d => selectorOf d = w.getLsbD 8
    | .rdb d j => selectorOf d = w.getLsbD 8 ∧ j = w.extractLsb' 0 8
    | .rdx d j => selectorOf d = w.getLsbD 8 ∧ j = w.extractLsb' 0 8
    | .cmp l => l = w.getLsbD 8) ∧
  (∀ w : Word, wordWellFormed w = true ↔ ∃ i, decode w = .ok i)

/-- R63: exactly 2056 of the 65536 words are commands. -/
def Obligations.LegalWordCount : Prop :=
  (List.range 65536).countP (fun n => (decode (BitVec.ofNat 16 n)).isOk) = 2056

/-! ### One step, the ports, reset -/

/-- R21, R72: when the host issues a word that decodes to a command, the step runs that command. (That the host's actions
stand in a list of the state is the model's own choice, log entry 3; `withFetchWord` is log entry 5.) -/
def Obligations.StepRunsDecodedCommand : Prop :=
  (∀ (s : State) (w : Word) (rest : List HostAction) (i : Instr),
    s.pending = .issue w :: rest → decode w = .ok i → step s = exec i { s with pending := rest }) ∧
  (∀ (s : State) (nbits w : Nat) (i : Instr), decodeTableWord nbits w = some i → step (s.withFetchWord nbits w) = exec i s)

/-- R21, R72: the hardware's step takes the command as an input: a step in which the host issues a word is `commandStep` of
that word on the architectural state, whatever the host does next, and a legal word is the same on the hardware alone as
`exec` of its command on the whole state. (The list of host actions is the model's own choice, log entry 3.) -/
def Obligations.HardwareStepTakesCommand : Prop :=
  (∀ (s : State) (w : Word) (rest : List HostAction), s.pending = .issue w :: rest →
    step s = .next { commandStep w s.toArch with pending := rest }) ∧
  (∀ (s : State) (w : Word) (i : Instr), decode w = .ok i → exec i s = .next { s with toArch := commandStep w s.toArch }) ∧
  (∀ (a : Arch) (w : Word) (r : Reject), decode w = .error r →
    commandStep w a = { a with err := a.err ||| 0x02#8, lerr := 1 })

/-- R72, R152, R181: when the host issues the words of a program one after another, the run of one step per word ends with
the fold of the one-command step over the words, faulting words included, and the host's further actions still to come.
(The list of host actions is the model's own choice, log entry 3.) -/
def Obligations.ProgramIsFoldOfCommandStep : Prop :=
  (∀ (ws : List Word) (a : Arch) (rest : List HostAction),
    Sys2Proof.core.run ws.length ({ a with pending := ws.map .issue ++ rest } : State) =
      .next ({ runWords ws a with pending := rest } : State)) ∧
  (∀ (is : List Instr) (s : State), runCommands is s = .next { s with toArch := runWords (is.map encode) s.toArch })

/-- R65, R150: a word that is no command sets bit 1 of `ERR` and `LERR = 1`, and has no other effect; every word with an
opcode from 0xB to 0xF is such a word. (The list of host actions is the model's own choice, log entry 3.) -/
def Obligations.IllegalWordOnlyRecorded : Prop :=
  (∀ (s : State) (w : Word) (rest : List HostAction) (r : Reject),
    s.pending = .issue w :: rest → decode w = .error r →
      step s = .next { s with pending := rest, err := s.err ||| 0x02#8, lerr := 1 }) ∧
  (∀ w : Word, 0xB000 ≤ w.toNat → ∃ r, decode w = .error r)

/-- R162: the step is total: it answers a next state for every state, and for every command. -/
def Obligations.EveryStepAnswersNext : Prop :=
  (∀ s : State, ∃ t, step s = .next t) ∧ (∀ (i : Instr) (s : State), ∃ t, exec i s = .next t)

/-- R39: every state element is zero after reset. -/
def Obligations.ResetStateIsZero : Prop :=
  State.reset.toArch = Arch.reset ∧
  (∀ i : Fin 256, Arch.reset.hist[i] = 0) ∧ (∀ j : Fin 5, Arch.reset.window[j] = 0) ∧ Arch.reset.len = 0 ∧
  Arch.reset.cksum = 0 ∧ Arch.reset.phase = .accumulating ∧
  (∀ d, (Arch.reset.digest d).ck = 0 ∧ (Arch.reset.digest d).lc = 0 ∧ (Arch.reset.digest d).qr = 0 ∧
    (∀ i : Fin 32, (Arch.reset.digest d).body[i] = 0) ∧ Arch.reset.valid d = false) ∧
  (∀ i : Fin 35, Arch.reset.lbuf[i] = 0) ∧ Arch.reset.lpos = 0 ∧ Arch.reset.lbad = false ∧ Arch.reset.dout = 0 ∧
  Arch.reset.hout = 0 ∧ Arch.reset.dist = 0 ∧ Arch.reset.err = 0 ∧ Arch.reset.lerr = 0

/-- R165, R167: `rst` between commands puts every element to its reset value, from any state; R36: a status-port read
changes nothing; R161: with nothing to do the engine holds its state. That the host's actions stand in a list, and that it
is empty after reset, is the model's own choice (log entry 3), and so are an idle step (log entry 4) and that the host's
further actions outlast `rst` (log entry 6). -/
def Obligations.HostResetAndIdleSteps : Prop :=
  (∀ (s : State) (rest : List HostAction), s.pending = .rst :: rest →
    step s = .next { State.reset with pending := rest }) ∧
  (∀ (s : State) (n : BitVec 3) (rest : List HostAction), s.pending = .readStatus n :: rest →
    step s = .next { s with pending := rest }) ∧
  (∀ s : State, s.pending = [] → step s = .next s) ∧ State.reset.pending = []

/-- R35: the fields of `STATUS`; R36, R50: what each status-port register number reads as, as one unsigned integer. -/
def Obligations.StatusPortReads : Prop :=
  ∀ s : Arch,
    statusPort 0 s = (if s.phase = .finalized then 1 else 0) + (if 5 ≤ s.len.toNat then 2 else 0) +
      (if s.dv0 = true then 4 else 0) + (if s.dv1 = true then 8 else 0) + (if s.lbad = true then 16 else 0) +
      32 * s.lpos.toNat + 4096 * s.lerr.toNat ∧
    (∀ k, (statusPort 1 s).testBit k = (s.err.getLsbD k && decide (1 ≤ k ∧ k ≤ 6))) ∧
    statusPort 2 s = s.len.toNat ∧ statusPort 3 s = s.cksum.toNat ∧ statusPort 4 s = s.dout.toNat ∧
    statusPort 5 s = s.hout.toNat ∧ statusPort 6 s = s.dist.toNat ∧ statusPort 7 s = 0

/-- R40: the invariants hold in the reset state. -/
def Obligations.ResetMeetsInvariant : Prop := State.reset.Inv

/-- R40 (a), (b), (c), (e), (f), (g), R26, R87: every step keeps the invariants, from every state that meets them, whatever
the host does at the ports. -/
def Obligations.StepKeepsInvariant : Prop := ∀ s t : State, s.Inv → step s = .next t → t.Inv

/-- R40 (d): `LPOS` stays even in every run that uses no `LDX`. -/
def Obligations.LposEvenWithoutLdx : Prop :=
  ∀ (is : List Instr) (s t : State), (∀ c, Instr.ldx c ∉ is) → s.lpos.toNat % 2 = 0 → runCommands is s = .next t →
    t.lpos.toNat % 2 = 0

/-! ### Accumulator -/

/-- R81: `NOP` writes `LERR` and nothing else. -/
def Obligations.NopOnlyClearsLerr : Prop := ∀ s : State, exec .nop s = .next { s with lerr := 0 }

/-- R82: `CLR` zeroes the accumulator and `LERR`, and changes nothing else. -/
def Obligations.ClrZeroesAccumulator : Prop :=
  ∀ s : State, ∃ t, exec .clr s = .next t ∧ (∀ i : Fin 256, t.hist[i] = 0) ∧ (∀ j : Fin 5, t.window[j] = 0) ∧
    t = { s with hist := t.hist, window := t.window, len := 0, cksum := 0, phase := .accumulating, lerr := 0 }

/-- R83 to R86: a `FEED` in phase Accumulating below the maximal length shifts the window, counts the byte, and from the
fifth byte on updates the checksum with the old one and raises each bucket by the number of times the six salted hashes
name it; nothing else changes. -/
def Obligations.FeedAccumulates : Prop :=
  ∀ (b : Byte) (s : State), s.phase = .accumulating → s.len.toNat < 2 ^ 32 - 1 →
    let H := fun k x y z : Byte => Config.sbox (Config.sbox (Config.sbox (k ^^^ x) ^^^ y) ^^^ z)
    let w := s.window
    ∃ t, exec (.feed b) s = .next t ∧
      t.window[0] = b ∧ t.window[1] = w[0] ∧ t.window[2] = w[1] ∧ t.window[3] = w[2] ∧ t.window[4] = w[3] ∧
      t.len.toNat = s.len.toNat + 1 ∧
      (s.len.toNat + 1 < 5 → t.cksum = s.cksum ∧ t.hist = s.hist) ∧
      (5 ≤ s.len.toNat + 1 → t.cksum = H 0 b w[0] s.cksum ∧
        ∀ i : Fin 256, t.hist[i] = s.hist[i] + BitVec.ofNat 35
          ([H 2 b w[0] w[1], H 3 b w[0] w[2], H 5 b w[1] w[2], H 7 b w[1] w[3], H 11 b w[0] w[3],
            H 13 b w[2] w[3]].count (BitVec.ofNat 8 i.val))) ∧
      t = { s with hist := t.hist, window := t.window, len := t.len, cksum := t.cksum, lerr := 0 }

/-- R84, R149: a `FEED` in phase Finalized raises `PHASE`, one at the maximal length raises `OVERFLOW`, `PHASE` first; the
byte is not consumed. -/
def Obligations.FeedRefused : Prop :=
  ∀ (b : Byte) (s : State),
    (s.phase = .finalized → exec (.feed b) s = .next { s with err := s.err ||| 0x04#8, lerr := 2 }) ∧
    (s.phase = .accumulating → s.len.toNat = 2 ^ 32 - 1 →
      exec (.feed b) s = .next { s with err := s.err ||| 0x08#8, lerr := 3 })

/-- R92: counters never decrease but by `CLR`; one `FEED` raises the sum of all counters by 0 or exactly 6, and a single
counter by at most 6. The invariant is a premise because R40 (b) is what excludes a wrap at 35 bits. -/
def Obligations.HistogramGrowth : Prop :=
  ∀ (i : Instr) (s t : State), s.Inv → exec i s = .next t →
    (i ≠ .clr → ∀ k : Fin 256, s.hist[k].toNat ≤ t.hist[k].toNat) ∧
    ((∃ b, i = .feed b) → t.lerr = 0 →
      histSum t.hist = histSum s.hist + (if t.len.toNat < 5 then 0 else 6) ∧
      ∀ k : Fin 256, t.hist[k].toNat ≤ s.hist[k].toNat + 6)

/-- R90: `HRD i` copies the counter of bucket `i` to `HOUT` and changes nothing else. -/
def Obligations.HrdReadsCounter : Prop :=
  ∀ (i : Byte) (s : State), exec (.hrd i) s = .next { s with hout := s.hist[i.toNat]'i.isLt, lerr := 0 }

/-- R77: for every permutation `SBOX`, `H` is a bijection in each of its four arguments, so the checksum update is one. -/
def Obligations.SubstHashBijectiveInEachArgument : Prop :=
  ∀ T : Equiv.Perm Byte,
    (∀ s a b, Function.Bijective fun c => substHash T s a b c) ∧
    (∀ s a c, Function.Bijective fun b => substHash T s a b c) ∧
    (∀ s b c, Function.Bijective fun a => substHash T s a b c) ∧
    (∀ a b c, Function.Bijective fun s => substHash T s a b c) ∧
    (∀ w0 w1, Function.Bijective fun x => substHash T 0 w0 w1 x)

/-- R91: feeding `bs` into a zero accumulator ends with the histogram, checksum, length and window that `acc(bs)` gives, and
with everything but `LERR` and the accumulator as it was. -/
def Obligations.FeedingComputesAcc : Prop :=
  ∀ (bs : List Byte) (s : State), s.accumulatorZero → bs.length < 2 ^ 32 →
    ∃ t, runCommands (feeds bs) s = .next t ∧
      (∀ i : Fin 256, t.hist[i].toNat = inputCount Config.sbox bs (BitVec.ofNat 8 i.val)) ∧
      t.cksum = inputChecksum Config.sbox bs ∧ t.len.toNat = bs.length ∧
      (∀ j : Fin 5, t.window[j] = if j.val < bs.length then bs.getD (bs.length - 1 - j.val) 0 else 0) ∧
      t = { s with hist := t.hist, window := t.window, len := t.len, cksum := t.cksum, lerr := t.lerr }

/-- R89: commands other than `CLR` and `FIN` interleaved between `FEED`s do not change the accumulator the `FEED`s leave. -/
def Obligations.InterleavingIsIrrelevant : Prop :=
  ∀ (is : List Instr) (s : State), Instr.clr ∉ is → (∀ d, Instr.fin d ∉ is) →
    ∃ t u, runCommands is s = .next t ∧
      runCommands (is.filter fun i => match i with | .feed _ => true | _ => false) s = .next u ∧ t.sameAccumulator u.toArch

/-- R94, R127: what a command does to the accumulator depends on the accumulator alone, and what it does to the loader on
the loader alone. -/
def Obligations.AccumulatorAndLoaderIndependent : Prop :=
  ∀ (i : Instr) (s s' t t' : State), exec i s = .next t → exec i s' = .next t' →
    (s.sameAccumulator s'.toArch → t.sameAccumulator t'.toArch) ∧ (s.sameLoader s'.toArch → t.sameLoader t'.toArch)

/-! ### Finalization -/

/-- R100, R109, R110: `FIN` on fewer than 50 bytes, or with at most 32 of the 128 effective counters non-zero, writes the
zero digest, without a fault. -/
def Obligations.FinOfSmallOrDegenerateInput : Prop :=
  ∀ (d : DigestReg) (s : State), s.phase = .accumulating →
    (s.len.toNat < 50 ∨ (List.range 128).countP (fun k => s.hist.getD k 0 ≠ 0) ≤ 32) →
    ∃ t, exec (.fin d) s = .next t ∧
      t.digest d = ⟨0, 0, 0, Vector.replicate 32 0⟩ ∧ t.valid d = true ∧ t.phase = .finalized ∧ t.lerr = 0 ∧
      t.err = s.err ∧ (∀ e, e ≠ d → t.digest e = s.digest e ∧ t.valid e = s.valid e) ∧
      t.hist = s.hist ∧ t.window = s.window ∧ t.len = s.len ∧ t.cksum = s.cksum ∧ t.sameLoader s.toArch ∧ t.sameResults s.toArch ∧
      t.pending = s.pending

/-- R96, R104 to R108, R110, R111: `FIN` on 50 bytes or more with a positive third quartile writes the digest of the
accumulator, from any ascending arrangement of the 128 effective counters, and keeps the accumulator. -/
def Obligations.FinWritesDigest : Prop :=
  ∀ (d : DigestReg) (s : State) (S : List Nat), s.phase = .accumulating → 50 ≤ s.len.toNat →
    sortsEffective S (fun k => (s.hist.getD k 0).toNat) → 0 < S.getD 95 0 →
    ∃ t, exec (.fin d) s = .next t ∧
      IsDigestOf (t.digest d) S s.cksum s.len.toNat (fun k => (s.hist.getD k 0).toNat) ∧
      t.valid d = true ∧ t.phase = .finalized ∧ t.lerr = 0 ∧ t.err = s.err ∧
      (∀ e, e ≠ d → t.digest e = s.digest e ∧ t.valid e = s.valid e) ∧
      t.hist = s.hist ∧ t.window = s.window ∧ t.len = s.len ∧ t.cksum = s.cksum ∧ t.sameLoader s.toArch ∧ t.sameResults s.toArch ∧
      t.pending = s.pending

/-- R110: `FIN` in phase Finalized raises `PHASE`, whatever register it names, and changes neither digest register. -/
def Obligations.FinRefused : Prop :=
  ∀ (d : DigestReg) (s : State), s.phase = .finalized →
    exec (.fin d) s = .next { s with err := s.err ||| 0x04#8, lerr := 2 }

/-- R97: buckets 128..255 have no influence on the digest `FIN` writes. -/
def Obligations.UpperBucketsIgnored : Prop :=
  ∀ (d : DigestReg) (s t t' : State) (h : Vector Counter 256), (∀ k : Fin 128, h[k.val] = s.hist[k.val]) →
    exec (.fin d) s = .next t → exec (.fin d) { s with hist := h } = .next t' → t'.digest d = t.digest d

/-- R112: feeding `bs` into a zero accumulator and finalizing leaves the digest of `bs`: zero for fewer than 50 bytes or a
zero third quartile, else the digest of the counts, the checksum and the length of `bs`; `ERR` is unchanged. -/
def Obligations.HashingComputesDigest : Prop :=
  ∀ (bs : List Byte) (d : DigestReg) (s : State) (S : List Nat), s.accumulatorZero → bs.length < 2 ^ 32 →
    sortsEffective S (fun k => inputCount Config.sbox bs (BitVec.ofNat 8 k)) →
    ∃ t, runCommands (feeds bs ++ [.fin d]) s = .next t ∧ t.valid d = true ∧ t.phase = .finalized ∧ t.lerr = 0 ∧
      t.err = s.err ∧
      (bs.length < 50 ∨ S.getD 95 0 = 0 → t.digest d = ⟨0, 0, 0, Vector.replicate 32 0⟩) ∧
      (50 ≤ bs.length → 0 < S.getD 95 0 →
        IsDigestOf (t.digest d) S (inputChecksum Config.sbox bs) bs.length
          (fun k => inputCount Config.sbox bs (BitVec.ofNat 8 k)))

/-- R101, R102: over the whole 32-bit range the threshold table is the logarithm formula, with the literals as exact
rationals. -/
def Obligations.LengthCodeIsLogFormula : Prop :=
  ∀ n : ℕ, 1 ≤ n → n < 2 ^ 32 →
    (lencode n : ℤ) =
      (if n ≤ 656 then ⌊Real.log n / 0.4054651⌋
        else if n ≤ 3199 then ⌊Real.log n / 0.26236426 - 8.72777⌋
        else ⌊Real.log n / 0.095310180 - 62.5472⌋) % 255

/-- R103: a length that `FIN` evaluates has a length code in 9..170; R102: the code never falls as the length grows. (The
spec gives the code for `1 <= n < 2^32` only; that the second clause takes in the values at 0 and from `2^32` on is the
model's own continuation of the table, log entry 14.) -/
def Obligations.LengthCodeRange : Prop :=
  (∀ n, 50 ≤ n → n < 2 ^ 32 → 9 ≤ lencode n ∧ lencode n ≤ 170) ∧ (∀ m n, m ≤ n → lencode m ≤ lencode n)

/-- R98: the reference procedure (median first, then the quartiles inside the boundaries it left) gives the order
statistics of R96 on every histogram. -/
def Obligations.ReferenceSelectionAgrees : Prop := ∀ h : Vector Counter 256, referenceQuartiles h = quartiles h

/-! ### Digest codec -/

/-- R116: `swap` exchanges the nibbles and is its own inverse. -/
def Obligations.SwapExchangesNibbles : Prop :=
  ∀ x : Byte, (swap x).toNat = 16 * (x.toNat % 16) + x.toNat / 16 ∧ swap (swap x) = x

/-- R115, R48: the places of the fields in the wire format. -/
def Obligations.WireLayout : Prop :=
  ∀ g : Digest, (wire g)[0] = swap g.ck ∧ (wire g)[1] = swap g.lc ∧ (wire g)[2] = g.qr ∧
    ∀ i : Fin 32, (wire g)[3 + i.val] = g.body[i]

/-- R117: the fields decoded from 35 bytes; decoding and encoding the wire format are inverse to each other, for every
digest and every 35 bytes. -/
def Obligations.WireUnwireInverse : Prop :=
  (∀ B : Vector Byte 35, (unwire B).ck = swap B[0] ∧ (unwire B).lc = swap B[1] ∧ (unwire B).qr = B[2] ∧
    ∀ i : Fin 32, (unwire B).body[i] = B[3 + i.val]) ∧
  (∀ g : Digest, unwire (wire g) = g) ∧ (∀ B : Vector Byte 35, wire (unwire B) = B)

/-- R120: the hex digits: `hexchar` writes 0x30 up and 0x61 up, `hexval` undoes it, takes either case to the same value, and
accepts the 22 codes only. The ASCII codes are the spec's own addition ("from general knowledge, not in source", G3), log
entry 11. -/
def Obligations.HexDigitCodes : Prop :=
  (∀ n : Nibble, (hexChar n).toNat = if n.toNat ≤ 9 then 0x30 + n.toNat else 0x57 + n.toNat) ∧
  (∀ n : Nibble, hexVal (hexChar n) = some n) ∧
  (∀ c : Byte, hexVal c = none ↔ c.toNat ∉ hexDigitCodes) ∧
  (∀ k : Fin 6, hexVal (BitVec.ofNat 8 (0x41 + k.val)) = some (BitVec.ofNat 4 (10 + k.val)) ∧
    hexVal (BitVec.ofNat 8 (0x61 + k.val)) = some (BitVec.ofNat 4 (10 + k.val))) ∧
  (∀ k : Fin 10, hexVal (BitVec.ofNat 8 (0x30 + k.val)) = some (BitVec.ofNat 4 k.val))

/-- R121: `LDB` appends its byte at an even position below 70 of a good load, and else spoils the load with `PARSE`. -/
def Obligations.LdbAppendsByte : Prop :=
  ∀ (v : Byte) (s : State),
    (s.lbad = false → s.lpos.toNat % 2 = 0 → s.lpos.toNat < 70 →
      ∃ t, exec (.ldb v) s = .next t ∧ t.lpos.toNat = s.lpos.toNat + 2 ∧
        (∀ k : Fin 35, t.lbuf[k] = if k.val = s.lpos.toNat / 2 then v else s.lbuf[k]) ∧
        t = { s with lbuf := t.lbuf, lpos := t.lpos, lerr := 0 }) ∧
    (s.lbad = true ∨ s.lpos.toNat % 2 = 1 ∨ 70 ≤ s.lpos.toNat →
      exec (.ldb v) s = .next { s with lbad := true, err := s.err ||| 0x40#8, lerr := 6 })

/-- R122: `LDX` appends a hex digit to a good load, high nibble first with the low one cleared, and else spoils the load with
`PARSE`. -/
def Obligations.LdxAppendsDigit : Prop :=
  ∀ (c : Byte) (s : State),
    (∀ n : Nibble, hexVal c = some n → s.lbad = false → s.lpos.toNat < 70 →
      ∃ t, exec (.ldx c) s = .next t ∧ t.lpos.toNat = s.lpos.toNat + 1 ∧
        (∀ k : Fin 35, t.lbuf[k] =
          if k.val = s.lpos.toNat / 2 then
            (if s.lpos.toNat % 2 = 0 then BitVec.ofNat 8 (16 * n.toNat) else s.lbuf[k] ||| BitVec.ofNat 8 n.toNat)
          else s.lbuf[k]) ∧
        t = { s with lbuf := t.lbuf, lpos := t.lpos, lerr := 0 }) ∧
    (s.lbad = true ∨ hexVal c = none ∨ 70 ≤ s.lpos.toNat →
      exec (.ldx c) s = .next { s with lbad := true, err := s.err ||| 0x40#8, lerr := 6 })

/-- R123: `LDC d` commits the 35 loaded bytes to `D[d]` exactly from `LPOS = 70`, `LBAD = 0`, and faults `PARSE` otherwise; in
both cases the loader is ready again and `LBUF` keeps its bytes. -/
def Obligations.LdcCommitsOrFaults : Prop :=
  ∀ (d : DigestReg) (s : State),
    (s.lbad = false → s.lpos.toNat = 70 →
      exec (.ldc d) s =
        .next { s with toArch :=
          { s.putDigest d ⟨swap s.lbuf[0], swap s.lbuf[1], s.lbuf[2], Vector.ofFn fun k => s.lbuf[3 + k.val]⟩ with
            lpos := 0, lbad := false, lerr := 0 } }) ∧
    (s.lbad = true ∨ s.lpos.toNat ≠ 70 →
      exec (.ldc d) s = .next { s with lpos := 0, lbad := false, err := s.err ||| 0x40#8, lerr := 6 })

/-- R124: `RDB` reads one wire byte of a valid register; `INDEX` above 34 first, then `INVALID`. -/
def Obligations.RdbReadsWireByte : Prop :=
  ∀ (d : DigestReg) (i : Byte) (s : State),
    (∀ h : i.toNat ≤ 34, s.valid d = true →
      exec (.rdb d i) s = .next { s with dout := (wire (s.digest d))[i.toNat], lerr := 0 }) ∧
    (34 < i.toNat → exec (.rdb d i) s = .next { s with err := s.err ||| 0x10#8, lerr := 4 }) ∧
    (i.toNat ≤ 34 → s.valid d = false → exec (.rdb d i) s = .next { s with err := s.err ||| 0x20#8, lerr := 5 })

/-- R125: `RDX` reads one lower-case hex character of a valid register, the high nibble at an even index; `INDEX` above 69
first, then `INVALID`. -/
def Obligations.RdxReadsHexCharacter : Prop :=
  ∀ (d : DigestReg) (i : Byte) (s : State),
    (∀ h : i.toNat ≤ 69, s.valid d = true →
      exec (.rdx d i) s = .next { s with
        dout := hexChar (if i.toNat % 2 = 0 then ((wire (s.digest d))[i.toNat / 2]).extractLsb' 4 4
          else ((wire (s.digest d))[i.toNat / 2]).extractLsb' 0 4),
        lerr := 0 }) ∧
    (69 < i.toNat → exec (.rdx d i) s = .next { s with err := s.err ||| 0x10#8, lerr := 4 }) ∧
    (i.toNat ≤ 69 → s.valid d = false → exec (.rdx d i) s = .next { s with err := s.err ||| 0x20#8, lerr := 5 })

/-- R118: the 70 characters `RDX` gives for a valid `D[d]`, loaded with `LDX` into a ready loader and committed with
`LDC e`, make `D[e]` equal to `D[d]`, with no fault. -/
def Obligations.TextRoundTrip : Prop :=
  ∀ (d e : DigestReg) (s : State), s.valid d = true → s.loaderReady →
    ∃ cs : List Byte, cs.length = 70 ∧
      (∀ i : Fin 70, exec (.rdx d (BitVec.ofNat 8 i.val)) s = .next { s with dout := cs.getD i.val 0, lerr := 0 }) ∧
      ∃ t, runCommands (parseText e cs) s = .next t ∧ t.digest e = s.digest d ∧ t.valid e = true ∧ t.loaderReady ∧
        t.err = s.err ∧ t.lerr = 0 ∧ t.sameAccumulator s.toArch ∧ t.sameResults s.toArch

/-- R119, R122, R123: any 70 hex digits of either case, loaded into a ready loader, commit the digest whose wire bytes they
spell, high nibble first. -/
def Obligations.ParseAcceptsSeventyDigits : Prop :=
  ∀ (cs : List Byte) (ns : List Nibble) (e : DigestReg) (s : State), s.loaderReady → ns.length = 70 →
    cs.map hexVal = ns.map some →
    ∃ t, runCommands (parseText e cs) s = .next t ∧ t.valid e = true ∧ t.lerr = 0 ∧ t.err = s.err ∧
      ∀ k : Fin 35, (wire (t.digest e))[k].toNat = 16 * (ns.getD (2 * k.val) 0).toNat + (ns.getD (2 * k.val + 1) 0).toNat

/-- R126: a text of another length, or with a character that is no hex digit, ends in `PARSE` at the `LDC`, and no digest
register is written. -/
def Obligations.ParseRefusesMalformedText : Prop :=
  ∀ (cs : List Byte) (e : DigestReg) (s : State), s.loaderReady →
    (cs.length ≠ 70 ∨ ∃ c ∈ cs, hexVal c = none) →
    ∃ t, runCommands (parseText e cs) s = .next t ∧ t.lerr = 6 ∧ t.err.getLsbD 6 = true ∧ t.sameDigests s.toArch ∧ t.loaderReady

/-! ### Comparator -/

/-- R133 to R140, R142: `CMP l` with both registers valid puts into `DIST` the sum of the length term (if `l`), the two ratio
terms, the checksum term and the body term, and changes nothing else; with an invalid register it raises `INVALID`. -/
def Obligations.CmpStoresDistance : Prop :=
  ∀ (l : Bool) (s : State),
    let ring := fun (x y R : Nat) => min ((x : ℤ) - y).natAbs (R - ((x : ℤ) - y).natAbs)
    let ld := ring s.d0.lc.toNat s.d1.lc.toNat 256
    let ratio := fun x y : Nat => if ring x y 16 ≤ 1 then ring x y 16 else 12 * (ring x y 16 - 1)
    let PD := fun n : Nat => if n = 0 then 0 else if n = 1 then Config.pd.excess1.val + 1
      else if n = 2 then Config.pd.excess2.val + 1 else Config.pd.excess3.val + 1
    (s.dv0 = true → s.dv1 = true →
      ∃ t, exec (.cmp l) s = .next t ∧
        t.dist.toNat = (if l = true then (if ld ≤ 1 then ld else 12 * ld) else 0) +
          ratio (s.d0.qr.toNat / 16) (s.d1.qr.toNat / 16) + ratio (s.d0.qr.toNat % 16) (s.d1.qr.toNat % 16) +
          (if s.d0.ck ≠ s.d1.ck then 1 else 0) +
          (∑ k : Fin 32, ∑ j : Fin 4,
            PD ((s.d0.body[k].toNat / 4 ^ j.val % 4 : ℤ) - (s.d1.body[k].toNat / 4 ^ j.val % 4 : ℤ)).natAbs) ∧
        t = { s with dist := t.dist, lerr := 0 }) ∧
    (s.dv0 = false ∨ s.dv1 = false → exec (.cmp l) s = .next { s with err := s.err ||| 0x20#8, lerr := 5 })

/-- R133: the circular distance is the smaller of the two ways round; it is symmetric, zero exactly on equal points, and at
most half the ring. -/
def Obligations.ModDiffProperties : Prop :=
  ∀ x y R : Nat, x < R → y < R →
    (modDiff x y R : ℤ) = min |(x : ℤ) - y| (R - |(x : ℤ) - y|) ∧
    modDiff x y R = modDiff y x R ∧ (modDiff x y R = 0 ↔ x = y) ∧ modDiff x y R ≤ R / 2

/-- R138: the bit-pair table is symmetric, zero exactly on the diagonal, and at most four times the largest `PD`. -/
def Obligations.BitPairTableProperties : Prop :=
  ∀ (P : PerCodeDistance) (x y : Byte),
    bitPairDistance P x y = bitPairDistance P y x ∧ (bitPairDistance P x y = 0 ↔ x = y) ∧
    bitPairDistance P x y ≤
      4 * max (perCodeDistance P 1) (max (perCodeDistance P 2) (perCodeDistance P 3)) ∧
    bitPairDistance Config.defaultPd x y ≤ 24

/-- R143: for every legal `PD` the distance is symmetric, zero of equal digests, zero with the length term only of equal
digests, and zero without it exactly when checksum, ratios and body agree. -/
def Obligations.DistanceSymmetryAndZeros : Prop :=
  ∀ (P : PerCodeDistance) (a b : Digest),
    (∀ l, distance P a b l = distance P b a l) ∧ (∀ l, distance P a a l = 0) ∧
    (distance P a b true = 0 ↔ a = b) ∧
    (distance P a b false = 0 ↔ a.ck = b.ck ∧ a.qr = b.qr ∧ a.body = b.body)

/-- R141: the distance is at most 3625 for every legal `PD`, at most 2473 for the default, and the default bound is reached
by the two digests of R144 (g). -/
def Obligations.DistanceRange : Prop :=
  (∀ (P : PerCodeDistance) (a b : Digest) (l : Bool), distance P a b l ≤ 3625) ∧
  (∀ (a b : Digest) (l : Bool), distance Config.defaultPd a b l ≤ 2473) ∧
  distance Config.defaultPd ⟨0, 0, 0x00, Vector.replicate 32 0⟩ ⟨1, 128, 0x88, Vector.replicate 32 0xFF⟩ true = 2473

/-! ### Faults and frames over all commands -/

/-- R163, R149, R150, R151: every command raises exactly the fault the legality matrix gives it, and only records it; with
no fault it clears `LERR` and keeps `ERR`. -/
def Obligations.FaultsFollowLegalityMatrix : Prop :=
  ∀ (i : Instr) (s : State), ∃ t, exec i s = .next t ∧
    (matrixFault i s.toArch = none → t.lerr = 0 ∧ t.err = s.err) ∧
    (∀ c, matrixFault i s.toArch = some c → t.lerr = c.code ∧
      ∀ k, t.err.getLsbD k = (s.err.getLsbD k || decide (k = c.code.toNat)))

/-- R150: a faulting command sets the bit of `ERR` its code names, writes the code, one of 1..6, to `LERR`, and changes
nothing else, except that `LDB` and `LDX` set `LBAD` and `LDC` zeroes `LPOS` and `LBAD`; R151: a command that does not fault
leaves `LERR = 0` and `ERR` as it was. -/
def Obligations.FaultsArePrecise : Prop :=
  ∀ (i : Instr) (s t : State), exec i s = .next t →
    (t.lerr ≠ 0 → t.lerr.toNat ≤ 6 ∧ t = { s with
      err := s.err ||| 1#8 <<< t.lerr.toNat
      lerr := t.lerr
      lpos := match i with | .ldc _ => 0 | _ => s.lpos
      lbad := match i with | .ldb _ => true | .ldx _ => true | .ldc _ => false | _ => s.lbad }) ∧
    (t.lerr = 0 → t.err = s.err)

/-- R153, R165, R17: no step but one in which the host asserts `rst` clears a bit of `ERR` or a valid bit. (The list of host
actions is the model's own choice, log entry 3.) -/
def Obligations.ErrClearedOnlyByReset : Prop :=
  ∀ s t : State, (∀ rest, s.pending ≠ .rst :: rest) → step s = .next t →
    (∀ k, s.err.getLsbD k = true → t.err.getLsbD k = true) ∧ ∀ d, s.valid d = true → t.valid d = true

/-- R17, R18: only a `FIN d` or `LDC d` that completes writes a digest register, and only `D[d]`; no command clears a valid
bit. -/
def Obligations.DigestWriters : Prop :=
  ∀ (i : Instr) (s t : State) (d : DigestReg), exec i s = .next t →
    (i ≠ .fin d → i ≠ .ldc d → t.digest d = s.digest d ∧ t.valid d = s.valid d) ∧
    (t.lerr ≠ 0 → t.digest d = s.digest d ∧ t.valid d = s.valid d) ∧
    (i = .fin d ∨ i = .ldc d → t.lerr = 0 → t.valid d = true) ∧
    (s.valid d = true → t.valid d = true)

/-- R23, R25 to R32, R174: which commands write the accumulator, the loader and the result registers; all others leave them
alone, and no command touches what the host does next. -/
def Obligations.FrameOfEveryCommand : Prop :=
  ∀ (i : Instr) (s t : State), exec i s = .next t →
    (i ≠ .clr → (∀ b, i ≠ .feed b) → t.hist = s.hist ∧ t.window = s.window ∧ t.len = s.len ∧ t.cksum = s.cksum) ∧
    (i ≠ .clr → (∀ d, i ≠ .fin d) → t.phase = s.phase) ∧
    ((∀ v, i ≠ .ldb v) → (∀ c, i ≠ .ldx c) → (∀ d, i ≠ .ldc d) → t.sameLoader s.toArch) ∧
    ((∀ d k, i ≠ .rdb d k) → (∀ d k, i ≠ .rdx d k) → t.dout = s.dout) ∧
    ((∀ k, i ≠ .hrd k) → t.hout = s.hout) ∧ ((∀ l, i ≠ .cmp l) → t.dist = s.dist) ∧ t.pending = s.pending

/-- R54: `HRD`, `RDB`, `RDX`, `CMP`, and `CLR` and `NOP`, are idempotent: a second one directly after the first changes
nothing more. -/
def Obligations.ReadsAreIdempotent : Prop :=
  ∀ (i : Instr) (s t : State),
    (i = .nop ∨ i = .clr ∨ (∃ k, i = .hrd k) ∨ (∃ d k, i = .rdb d k) ∨ (∃ d k, i = .rdx d k) ∨ ∃ l, i = .cmp l) →
    exec i s = .next t → exec i t = .next t
end

