-- ==== Sys2Proof/Laws/State.lean ====
section
/-! SUPPORT. One lemma per field per update of the state, so that no later proof unfolds a record update. -/

namespace Sys2Proof.Machine

namespace Arch

variable (s : Arch)

/-! ### `consume` -/

@[simp] theorem consume_hist (b : Byte) : (s.consume b).hist = s.hist := rfl
@[simp] theorem consume_window (b : Byte) : (s.consume b).window = shiftWindow s.window b := rfl
@[simp] theorem consume_len (b : Byte) : (s.consume b).len = s.len + 1 := rfl
@[simp] theorem consume_cksum (b : Byte) : (s.consume b).cksum = s.cksum := rfl
@[simp] theorem consume_phase (b : Byte) : (s.consume b).phase = s.phase := rfl
@[simp] theorem consume_d0 (b : Byte) : (s.consume b).d0 = s.d0 := rfl
@[simp] theorem consume_d1 (b : Byte) : (s.consume b).d1 = s.d1 := rfl
@[simp] theorem consume_dv0 (b : Byte) : (s.consume b).dv0 = s.dv0 := rfl
@[simp] theorem consume_dv1 (b : Byte) : (s.consume b).dv1 = s.dv1 := rfl
@[simp] theorem consume_lbuf (b : Byte) : (s.consume b).lbuf = s.lbuf := rfl
@[simp] theorem consume_lpos (b : Byte) : (s.consume b).lpos = s.lpos := rfl
@[simp] theorem consume_lbad (b : Byte) : (s.consume b).lbad = s.lbad := rfl
@[simp] theorem consume_dout (b : Byte) : (s.consume b).dout = s.dout := rfl
@[simp] theorem consume_hout (b : Byte) : (s.consume b).hout = s.hout := rfl
@[simp] theorem consume_dist (b : Byte) : (s.consume b).dist = s.dist := rfl
@[simp] theorem consume_err (b : Byte) : (s.consume b).err = s.err := rfl
@[simp] theorem consume_lerr (b : Byte) : (s.consume b).lerr = s.lerr := rfl

/-! ### `setCksum` -/

@[simp] theorem setCksum_hist (c : Byte) : (s.setCksum c).hist = s.hist := rfl
@[simp] theorem setCksum_window (c : Byte) : (s.setCksum c).window = s.window := rfl
@[simp] theorem setCksum_len (c : Byte) : (s.setCksum c).len = s.len := rfl
@[simp] theorem setCksum_cksum (c : Byte) : (s.setCksum c).cksum = c := rfl
@[simp] theorem setCksum_phase (c : Byte) : (s.setCksum c).phase = s.phase := rfl
@[simp] theorem setCksum_d0 (c : Byte) : (s.setCksum c).d0 = s.d0 := rfl
@[simp] theorem setCksum_d1 (c : Byte) : (s.setCksum c).d1 = s.d1 := rfl
@[simp] theorem setCksum_dv0 (c : Byte) : (s.setCksum c).dv0 = s.dv0 := rfl
@[simp] theorem setCksum_dv1 (c : Byte) : (s.setCksum c).dv1 = s.dv1 := rfl
@[simp] theorem setCksum_lbuf (c : Byte) : (s.setCksum c).lbuf = s.lbuf := rfl
@[simp] theorem setCksum_lpos (c : Byte) : (s.setCksum c).lpos = s.lpos := rfl
@[simp] theorem setCksum_lbad (c : Byte) : (s.setCksum c).lbad = s.lbad := rfl
@[simp] theorem setCksum_dout (c : Byte) : (s.setCksum c).dout = s.dout := rfl
@[simp] theorem setCksum_hout (c : Byte) : (s.setCksum c).hout = s.hout := rfl
@[simp] theorem setCksum_dist (c : Byte) : (s.setCksum c).dist = s.dist := rfl
@[simp] theorem setCksum_err (c : Byte) : (s.setCksum c).err = s.err := rfl
@[simp] theorem setCksum_lerr (c : Byte) : (s.setCksum c).lerr = s.lerr := rfl

/-! ### `setHist` -/

@[simp] theorem setHist_hist (h : Vector Counter 256) : (s.setHist h).hist = h := rfl
@[simp] theorem setHist_window (h : Vector Counter 256) : (s.setHist h).window = s.window := rfl
@[simp] theorem setHist_len (h : Vector Counter 256) : (s.setHist h).len = s.len := rfl
@[simp] theorem setHist_cksum (h : Vector Counter 256) : (s.setHist h).cksum = s.cksum := rfl
@[simp] theorem setHist_phase (h : Vector Counter 256) : (s.setHist h).phase = s.phase := rfl
@[simp] theorem setHist_d0 (h : Vector Counter 256) : (s.setHist h).d0 = s.d0 := rfl
@[simp] theorem setHist_d1 (h : Vector Counter 256) : (s.setHist h).d1 = s.d1 := rfl
@[simp] theorem setHist_dv0 (h : Vector Counter 256) : (s.setHist h).dv0 = s.dv0 := rfl
@[simp] theorem setHist_dv1 (h : Vector Counter 256) : (s.setHist h).dv1 = s.dv1 := rfl
@[simp] theorem setHist_lbuf (h : Vector Counter 256) : (s.setHist h).lbuf = s.lbuf := rfl
@[simp] theorem setHist_lpos (h : Vector Counter 256) : (s.setHist h).lpos = s.lpos := rfl
@[simp] theorem setHist_lbad (h : Vector Counter 256) : (s.setHist h).lbad = s.lbad := rfl
@[simp] theorem setHist_dout (h : Vector Counter 256) : (s.setHist h).dout = s.dout := rfl
@[simp] theorem setHist_hout (h : Vector Counter 256) : (s.setHist h).hout = s.hout := rfl
@[simp] theorem setHist_dist (h : Vector Counter 256) : (s.setHist h).dist = s.dist := rfl
@[simp] theorem setHist_err (h : Vector Counter 256) : (s.setHist h).err = s.err := rfl
@[simp] theorem setHist_lerr (h : Vector Counter 256) : (s.setHist h).lerr = s.lerr := rfl

/-! ### `setPhase` -/

@[simp] theorem setPhase_hist (p : Phase) : (s.setPhase p).hist = s.hist := rfl
@[simp] theorem setPhase_window (p : Phase) : (s.setPhase p).window = s.window := rfl
@[simp] theorem setPhase_len (p : Phase) : (s.setPhase p).len = s.len := rfl
@[simp] theorem setPhase_cksum (p : Phase) : (s.setPhase p).cksum = s.cksum := rfl
@[simp] theorem setPhase_phase (p : Phase) : (s.setPhase p).phase = p := rfl
@[simp] theorem setPhase_d0 (p : Phase) : (s.setPhase p).d0 = s.d0 := rfl
@[simp] theorem setPhase_d1 (p : Phase) : (s.setPhase p).d1 = s.d1 := rfl
@[simp] theorem setPhase_dv0 (p : Phase) : (s.setPhase p).dv0 = s.dv0 := rfl
@[simp] theorem setPhase_dv1 (p : Phase) : (s.setPhase p).dv1 = s.dv1 := rfl
@[simp] theorem setPhase_lbuf (p : Phase) : (s.setPhase p).lbuf = s.lbuf := rfl
@[simp] theorem setPhase_lpos (p : Phase) : (s.setPhase p).lpos = s.lpos := rfl
@[simp] theorem setPhase_lbad (p : Phase) : (s.setPhase p).lbad = s.lbad := rfl
@[simp] theorem setPhase_dout (p : Phase) : (s.setPhase p).dout = s.dout := rfl
@[simp] theorem setPhase_hout (p : Phase) : (s.setPhase p).hout = s.hout := rfl
@[simp] theorem setPhase_dist (p : Phase) : (s.setPhase p).dist = s.dist := rfl
@[simp] theorem setPhase_err (p : Phase) : (s.setPhase p).err = s.err := rfl
@[simp] theorem setPhase_lerr (p : Phase) : (s.setPhase p).lerr = s.lerr := rfl

/-! ### `clearAccumulator` -/

@[simp] theorem clearAccumulator_hist : (s.clearAccumulator).hist = Vector.replicate 256 0 := rfl
@[simp] theorem clearAccumulator_window : (s.clearAccumulator).window = Vector.replicate 5 0 := rfl
@[simp] theorem clearAccumulator_len : (s.clearAccumulator).len = 0 := rfl
@[simp] theorem clearAccumulator_cksum : (s.clearAccumulator).cksum = 0 := rfl
@[simp] theorem clearAccumulator_phase : (s.clearAccumulator).phase = .accumulating := rfl
@[simp] theorem clearAccumulator_d0 : (s.clearAccumulator).d0 = s.d0 := rfl
@[simp] theorem clearAccumulator_d1 : (s.clearAccumulator).d1 = s.d1 := rfl
@[simp] theorem clearAccumulator_dv0 : (s.clearAccumulator).dv0 = s.dv0 := rfl
@[simp] theorem clearAccumulator_dv1 : (s.clearAccumulator).dv1 = s.dv1 := rfl
@[simp] theorem clearAccumulator_lbuf : (s.clearAccumulator).lbuf = s.lbuf := rfl
@[simp] theorem clearAccumulator_lpos : (s.clearAccumulator).lpos = s.lpos := rfl
@[simp] theorem clearAccumulator_lbad : (s.clearAccumulator).lbad = s.lbad := rfl
@[simp] theorem clearAccumulator_dout : (s.clearAccumulator).dout = s.dout := rfl
@[simp] theorem clearAccumulator_hout : (s.clearAccumulator).hout = s.hout := rfl
@[simp] theorem clearAccumulator_dist : (s.clearAccumulator).dist = s.dist := rfl
@[simp] theorem clearAccumulator_err : (s.clearAccumulator).err = s.err := rfl
@[simp] theorem clearAccumulator_lerr : (s.clearAccumulator).lerr = s.lerr := rfl

/-! ### `setLbuf` -/

@[simp] theorem setLbuf_hist (buf : Vector Byte 35) : (s.setLbuf buf).hist = s.hist := rfl
@[simp] theorem setLbuf_window (buf : Vector Byte 35) : (s.setLbuf buf).window = s.window := rfl
@[simp] theorem setLbuf_len (buf : Vector Byte 35) : (s.setLbuf buf).len = s.len := rfl
@[simp] theorem setLbuf_cksum (buf : Vector Byte 35) : (s.setLbuf buf).cksum = s.cksum := rfl
@[simp] theorem setLbuf_phase (buf : Vector Byte 35) : (s.setLbuf buf).phase = s.phase := rfl
@[simp] theorem setLbuf_d0 (buf : Vector Byte 35) : (s.setLbuf buf).d0 = s.d0 := rfl
@[simp] theorem setLbuf_d1 (buf : Vector Byte 35) : (s.setLbuf buf).d1 = s.d1 := rfl
@[simp] theorem setLbuf_dv0 (buf : Vector Byte 35) : (s.setLbuf buf).dv0 = s.dv0 := rfl
@[simp] theorem setLbuf_dv1 (buf : Vector Byte 35) : (s.setLbuf buf).dv1 = s.dv1 := rfl
@[simp] theorem setLbuf_lbuf (buf : Vector Byte 35) : (s.setLbuf buf).lbuf = buf := rfl
@[simp] theorem setLbuf_lpos (buf : Vector Byte 35) : (s.setLbuf buf).lpos = s.lpos := rfl
@[simp] theorem setLbuf_lbad (buf : Vector Byte 35) : (s.setLbuf buf).lbad = s.lbad := rfl
@[simp] theorem setLbuf_dout (buf : Vector Byte 35) : (s.setLbuf buf).dout = s.dout := rfl
@[simp] theorem setLbuf_hout (buf : Vector Byte 35) : (s.setLbuf buf).hout = s.hout := rfl
@[simp] theorem setLbuf_dist (buf : Vector Byte 35) : (s.setLbuf buf).dist = s.dist := rfl
@[simp] theorem setLbuf_err (buf : Vector Byte 35) : (s.setLbuf buf).err = s.err := rfl
@[simp] theorem setLbuf_lerr (buf : Vector Byte 35) : (s.setLbuf buf).lerr = s.lerr := rfl

/-! ### `setLpos` -/

@[simp] theorem setLpos_hist (p : BitVec 7) : (s.setLpos p).hist = s.hist := rfl
@[simp] theorem setLpos_window (p : BitVec 7) : (s.setLpos p).window = s.window := rfl
@[simp] theorem setLpos_len (p : BitVec 7) : (s.setLpos p).len = s.len := rfl
@[simp] theorem setLpos_cksum (p : BitVec 7) : (s.setLpos p).cksum = s.cksum := rfl
@[simp] theorem setLpos_phase (p : BitVec 7) : (s.setLpos p).phase = s.phase := rfl
@[simp] theorem setLpos_d0 (p : BitVec 7) : (s.setLpos p).d0 = s.d0 := rfl
@[simp] theorem setLpos_d1 (p : BitVec 7) : (s.setLpos p).d1 = s.d1 := rfl
@[simp] theorem setLpos_dv0 (p : BitVec 7) : (s.setLpos p).dv0 = s.dv0 := rfl
@[simp] theorem setLpos_dv1 (p : BitVec 7) : (s.setLpos p).dv1 = s.dv1 := rfl
@[simp] theorem setLpos_lbuf (p : BitVec 7) : (s.setLpos p).lbuf = s.lbuf := rfl
@[simp] theorem setLpos_lpos (p : BitVec 7) : (s.setLpos p).lpos = p := rfl
@[simp] theorem setLpos_lbad (p : BitVec 7) : (s.setLpos p).lbad = s.lbad := rfl
@[simp] theorem setLpos_dout (p : BitVec 7) : (s.setLpos p).dout = s.dout := rfl
@[simp] theorem setLpos_hout (p : BitVec 7) : (s.setLpos p).hout = s.hout := rfl
@[simp] theorem setLpos_dist (p : BitVec 7) : (s.setLpos p).dist = s.dist := rfl
@[simp] theorem setLpos_err (p : BitVec 7) : (s.setLpos p).err = s.err := rfl
@[simp] theorem setLpos_lerr (p : BitVec 7) : (s.setLpos p).lerr = s.lerr := rfl

/-! ### `setLbad` -/

@[simp] theorem setLbad_hist (b : Bool) : (s.setLbad b).hist = s.hist := rfl
@[simp] theorem setLbad_window (b : Bool) : (s.setLbad b).window = s.window := rfl
@[simp] theorem setLbad_len (b : Bool) : (s.setLbad b).len = s.len := rfl
@[simp] theorem setLbad_cksum (b : Bool) : (s.setLbad b).cksum = s.cksum := rfl
@[simp] theorem setLbad_phase (b : Bool) : (s.setLbad b).phase = s.phase := rfl
@[simp] theorem setLbad_d0 (b : Bool) : (s.setLbad b).d0 = s.d0 := rfl
@[simp] theorem setLbad_d1 (b : Bool) : (s.setLbad b).d1 = s.d1 := rfl
@[simp] theorem setLbad_dv0 (b : Bool) : (s.setLbad b).dv0 = s.dv0 := rfl
@[simp] theorem setLbad_dv1 (b : Bool) : (s.setLbad b).dv1 = s.dv1 := rfl
@[simp] theorem setLbad_lbuf (b : Bool) : (s.setLbad b).lbuf = s.lbuf := rfl
@[simp] theorem setLbad_lpos (b : Bool) : (s.setLbad b).lpos = s.lpos := rfl
@[simp] theorem setLbad_lbad (b : Bool) : (s.setLbad b).lbad = b := rfl
@[simp] theorem setLbad_dout (b : Bool) : (s.setLbad b).dout = s.dout := rfl
@[simp] theorem setLbad_hout (b : Bool) : (s.setLbad b).hout = s.hout := rfl
@[simp] theorem setLbad_dist (b : Bool) : (s.setLbad b).dist = s.dist := rfl
@[simp] theorem setLbad_err (b : Bool) : (s.setLbad b).err = s.err := rfl
@[simp] theorem setLbad_lerr (b : Bool) : (s.setLbad b).lerr = s.lerr := rfl

/-! ### `setDout` -/

@[simp] theorem setDout_hist (v : Byte) : (s.setDout v).hist = s.hist := rfl
@[simp] theorem setDout_window (v : Byte) : (s.setDout v).window = s.window := rfl
@[simp] theorem setDout_len (v : Byte) : (s.setDout v).len = s.len := rfl
@[simp] theorem setDout_cksum (v : Byte) : (s.setDout v).cksum = s.cksum := rfl
@[simp] theorem setDout_phase (v : Byte) : (s.setDout v).phase = s.phase := rfl
@[simp] theorem setDout_d0 (v : Byte) : (s.setDout v).d0 = s.d0 := rfl
@[simp] theorem setDout_d1 (v : Byte) : (s.setDout v).d1 = s.d1 := rfl
@[simp] theorem setDout_dv0 (v : Byte) : (s.setDout v).dv0 = s.dv0 := rfl
@[simp] theorem setDout_dv1 (v : Byte) : (s.setDout v).dv1 = s.dv1 := rfl
@[simp] theorem setDout_lbuf (v : Byte) : (s.setDout v).lbuf = s.lbuf := rfl
@[simp] theorem setDout_lpos (v : Byte) : (s.setDout v).lpos = s.lpos := rfl
@[simp] theorem setDout_lbad (v : Byte) : (s.setDout v).lbad = s.lbad := rfl
@[simp] theorem setDout_dout (v : Byte) : (s.setDout v).dout = v := rfl
@[simp] theorem setDout_hout (v : Byte) : (s.setDout v).hout = s.hout := rfl
@[simp] theorem setDout_dist (v : Byte) : (s.setDout v).dist = s.dist := rfl
@[simp] theorem setDout_err (v : Byte) : (s.setDout v).err = s.err := rfl
@[simp] theorem setDout_lerr (v : Byte) : (s.setDout v).lerr = s.lerr := rfl

/-! ### `setHout` -/

@[simp] theorem setHout_hist (v : Counter) : (s.setHout v).hist = s.hist := rfl
@[simp] theorem setHout_window (v : Counter) : (s.setHout v).window = s.window := rfl
@[simp] theorem setHout_len (v : Counter) : (s.setHout v).len = s.len := rfl
@[simp] theorem setHout_cksum (v : Counter) : (s.setHout v).cksum = s.cksum := rfl
@[simp] theorem setHout_phase (v : Counter) : (s.setHout v).phase = s.phase := rfl
@[simp] theorem setHout_d0 (v : Counter) : (s.setHout v).d0 = s.d0 := rfl
@[simp] theorem setHout_d1 (v : Counter) : (s.setHout v).d1 = s.d1 := rfl
@[simp] theorem setHout_dv0 (v : Counter) : (s.setHout v).dv0 = s.dv0 := rfl
@[simp] theorem setHout_dv1 (v : Counter) : (s.setHout v).dv1 = s.dv1 := rfl
@[simp] theorem setHout_lbuf (v : Counter) : (s.setHout v).lbuf = s.lbuf := rfl
@[simp] theorem setHout_lpos (v : Counter) : (s.setHout v).lpos = s.lpos := rfl
@[simp] theorem setHout_lbad (v : Counter) : (s.setHout v).lbad = s.lbad := rfl
@[simp] theorem setHout_dout (v : Counter) : (s.setHout v).dout = s.dout := rfl
@[simp] theorem setHout_hout (v : Counter) : (s.setHout v).hout = v := rfl
@[simp] theorem setHout_dist (v : Counter) : (s.setHout v).dist = s.dist := rfl
@[simp] theorem setHout_err (v : Counter) : (s.setHout v).err = s.err := rfl
@[simp] theorem setHout_lerr (v : Counter) : (s.setHout v).lerr = s.lerr := rfl

/-! ### `setDist` -/

@[simp] theorem setDist_hist (v : BitVec 16) : (s.setDist v).hist = s.hist := rfl
@[simp] theorem setDist_window (v : BitVec 16) : (s.setDist v).window = s.window := rfl
@[simp] theorem setDist_len (v : BitVec 16) : (s.setDist v).len = s.len := rfl
@[simp] theorem setDist_cksum (v : BitVec 16) : (s.setDist v).cksum = s.cksum := rfl
@[simp] theorem setDist_phase (v : BitVec 16) : (s.setDist v).phase = s.phase := rfl
@[simp] theorem setDist_d0 (v : BitVec 16) : (s.setDist v).d0 = s.d0 := rfl
@[simp] theorem setDist_d1 (v : BitVec 16) : (s.setDist v).d1 = s.d1 := rfl
@[simp] theorem setDist_dv0 (v : BitVec 16) : (s.setDist v).dv0 = s.dv0 := rfl
@[simp] theorem setDist_dv1 (v : BitVec 16) : (s.setDist v).dv1 = s.dv1 := rfl
@[simp] theorem setDist_lbuf (v : BitVec 16) : (s.setDist v).lbuf = s.lbuf := rfl
@[simp] theorem setDist_lpos (v : BitVec 16) : (s.setDist v).lpos = s.lpos := rfl
@[simp] theorem setDist_lbad (v : BitVec 16) : (s.setDist v).lbad = s.lbad := rfl
@[simp] theorem setDist_dout (v : BitVec 16) : (s.setDist v).dout = s.dout := rfl
@[simp] theorem setDist_hout (v : BitVec 16) : (s.setDist v).hout = s.hout := rfl
@[simp] theorem setDist_dist (v : BitVec 16) : (s.setDist v).dist = v := rfl
@[simp] theorem setDist_err (v : BitVec 16) : (s.setDist v).err = s.err := rfl
@[simp] theorem setDist_lerr (v : BitVec 16) : (s.setDist v).lerr = s.lerr := rfl

/-! ### `raise` -/

@[simp] theorem raise_hist (c : FaultCode) : (s.raise c).hist = s.hist := rfl
@[simp] theorem raise_window (c : FaultCode) : (s.raise c).window = s.window := rfl
@[simp] theorem raise_len (c : FaultCode) : (s.raise c).len = s.len := rfl
@[simp] theorem raise_cksum (c : FaultCode) : (s.raise c).cksum = s.cksum := rfl
@[simp] theorem raise_phase (c : FaultCode) : (s.raise c).phase = s.phase := rfl
@[simp] theorem raise_d0 (c : FaultCode) : (s.raise c).d0 = s.d0 := rfl
@[simp] theorem raise_d1 (c : FaultCode) : (s.raise c).d1 = s.d1 := rfl
@[simp] theorem raise_dv0 (c : FaultCode) : (s.raise c).dv0 = s.dv0 := rfl
@[simp] theorem raise_dv1 (c : FaultCode) : (s.raise c).dv1 = s.dv1 := rfl
@[simp] theorem raise_lbuf (c : FaultCode) : (s.raise c).lbuf = s.lbuf := rfl
@[simp] theorem raise_lpos (c : FaultCode) : (s.raise c).lpos = s.lpos := rfl
@[simp] theorem raise_lbad (c : FaultCode) : (s.raise c).lbad = s.lbad := rfl
@[simp] theorem raise_dout (c : FaultCode) : (s.raise c).dout = s.dout := rfl
@[simp] theorem raise_hout (c : FaultCode) : (s.raise c).hout = s.hout := rfl
@[simp] theorem raise_dist (c : FaultCode) : (s.raise c).dist = s.dist := rfl
@[simp] theorem raise_err (c : FaultCode) : (s.raise c).err = s.err ||| c.errBit := rfl
@[simp] theorem raise_lerr (c : FaultCode) : (s.raise c).lerr = c.code := rfl

/-! ### `complete` -/

@[simp] theorem complete_hist : (s.complete).hist = s.hist := rfl
@[simp] theorem complete_window : (s.complete).window = s.window := rfl
@[simp] theorem complete_len : (s.complete).len = s.len := rfl
@[simp] theorem complete_cksum : (s.complete).cksum = s.cksum := rfl
@[simp] theorem complete_phase : (s.complete).phase = s.phase := rfl
@[simp] theorem complete_d0 : (s.complete).d0 = s.d0 := rfl
@[simp] theorem complete_d1 : (s.complete).d1 = s.d1 := rfl
@[simp] theorem complete_dv0 : (s.complete).dv0 = s.dv0 := rfl
@[simp] theorem complete_dv1 : (s.complete).dv1 = s.dv1 := rfl
@[simp] theorem complete_lbuf : (s.complete).lbuf = s.lbuf := rfl
@[simp] theorem complete_lpos : (s.complete).lpos = s.lpos := rfl
@[simp] theorem complete_lbad : (s.complete).lbad = s.lbad := rfl
@[simp] theorem complete_dout : (s.complete).dout = s.dout := rfl
@[simp] theorem complete_hout : (s.complete).hout = s.hout := rfl
@[simp] theorem complete_dist : (s.complete).dist = s.dist := rfl
@[simp] theorem complete_err : (s.complete).err = s.err := rfl
@[simp] theorem complete_lerr : (s.complete).lerr = 0 := rfl

/-! ### `closeLoad` -/

@[simp] theorem closeLoad_hist : (s.closeLoad).hist = s.hist := rfl
@[simp] theorem closeLoad_window : (s.closeLoad).window = s.window := rfl
@[simp] theorem closeLoad_len : (s.closeLoad).len = s.len := rfl
@[simp] theorem closeLoad_cksum : (s.closeLoad).cksum = s.cksum := rfl
@[simp] theorem closeLoad_phase : (s.closeLoad).phase = s.phase := rfl
@[simp] theorem closeLoad_d0 : (s.closeLoad).d0 = s.d0 := rfl
@[simp] theorem closeLoad_d1 : (s.closeLoad).d1 = s.d1 := rfl
@[simp] theorem closeLoad_dv0 : (s.closeLoad).dv0 = s.dv0 := rfl
@[simp] theorem closeLoad_dv1 : (s.closeLoad).dv1 = s.dv1 := rfl
@[simp] theorem closeLoad_lbuf : (s.closeLoad).lbuf = s.lbuf := rfl
@[simp] theorem closeLoad_lpos : (s.closeLoad).lpos = 0 := rfl
@[simp] theorem closeLoad_lbad : (s.closeLoad).lbad = false := rfl
@[simp] theorem closeLoad_dout : (s.closeLoad).dout = s.dout := rfl
@[simp] theorem closeLoad_hout : (s.closeLoad).hout = s.hout := rfl
@[simp] theorem closeLoad_dist : (s.closeLoad).dist = s.dist := rfl
@[simp] theorem closeLoad_err : (s.closeLoad).err = s.err := rfl
@[simp] theorem closeLoad_lerr : (s.closeLoad).lerr = s.lerr := rfl

/-! ### `spoilLoad` -/

@[simp] theorem spoilLoad_hist : (s.spoilLoad).hist = s.hist := rfl
@[simp] theorem spoilLoad_window : (s.spoilLoad).window = s.window := rfl
@[simp] theorem spoilLoad_len : (s.spoilLoad).len = s.len := rfl
@[simp] theorem spoilLoad_cksum : (s.spoilLoad).cksum = s.cksum := rfl
@[simp] theorem spoilLoad_phase : (s.spoilLoad).phase = s.phase := rfl
@[simp] theorem spoilLoad_d0 : (s.spoilLoad).d0 = s.d0 := rfl
@[simp] theorem spoilLoad_d1 : (s.spoilLoad).d1 = s.d1 := rfl
@[simp] theorem spoilLoad_dv0 : (s.spoilLoad).dv0 = s.dv0 := rfl
@[simp] theorem spoilLoad_dv1 : (s.spoilLoad).dv1 = s.dv1 := rfl
@[simp] theorem spoilLoad_lbuf : (s.spoilLoad).lbuf = s.lbuf := rfl
@[simp] theorem spoilLoad_lpos : (s.spoilLoad).lpos = s.lpos := rfl
@[simp] theorem spoilLoad_lbad : (s.spoilLoad).lbad = true := rfl
@[simp] theorem spoilLoad_dout : (s.spoilLoad).dout = s.dout := rfl
@[simp] theorem spoilLoad_hout : (s.spoilLoad).hout = s.hout := rfl
@[simp] theorem spoilLoad_dist : (s.spoilLoad).dist = s.dist := rfl
@[simp] theorem spoilLoad_err : (s.spoilLoad).err = s.err ||| FaultCode.parse.errBit := rfl
@[simp] theorem spoilLoad_lerr : (s.spoilLoad).lerr = FaultCode.parse.code := rfl

/-! ### `putDigest` -/

@[simp] theorem putDigest_hist (d : DigestReg) (g : Digest) : (s.putDigest d g).hist = s.hist := by cases d <;> rfl
@[simp] theorem putDigest_window (d : DigestReg) (g : Digest) : (s.putDigest d g).window = s.window := by cases d <;> rfl
@[simp] theorem putDigest_len (d : DigestReg) (g : Digest) : (s.putDigest d g).len = s.len := by cases d <;> rfl
@[simp] theorem putDigest_cksum (d : DigestReg) (g : Digest) : (s.putDigest d g).cksum = s.cksum := by cases d <;> rfl
@[simp] theorem putDigest_phase (d : DigestReg) (g : Digest) : (s.putDigest d g).phase = s.phase := by cases d <;> rfl
@[simp] theorem putDigest_lbuf (d : DigestReg) (g : Digest) : (s.putDigest d g).lbuf = s.lbuf := by cases d <;> rfl
@[simp] theorem putDigest_lpos (d : DigestReg) (g : Digest) : (s.putDigest d g).lpos = s.lpos := by cases d <;> rfl
@[simp] theorem putDigest_lbad (d : DigestReg) (g : Digest) : (s.putDigest d g).lbad = s.lbad := by cases d <;> rfl
@[simp] theorem putDigest_dout (d : DigestReg) (g : Digest) : (s.putDigest d g).dout = s.dout := by cases d <;> rfl
@[simp] theorem putDigest_hout (d : DigestReg) (g : Digest) : (s.putDigest d g).hout = s.hout := by cases d <;> rfl
@[simp] theorem putDigest_dist (d : DigestReg) (g : Digest) : (s.putDigest d g).dist = s.dist := by cases d <;> rfl
@[simp] theorem putDigest_err (d : DigestReg) (g : Digest) : (s.putDigest d g).err = s.err := by cases d <;> rfl
@[simp] theorem putDigest_lerr (d : DigestReg) (g : Digest) : (s.putDigest d g).lerr = s.lerr := by cases d <;> rfl

@[simp] theorem digest_putDigest_self (d : DigestReg) (g : Digest) : (s.putDigest d g).digest d = g := by cases d <;> rfl
@[simp] theorem valid_putDigest_self (d : DigestReg) (g : Digest) : (s.putDigest d g).valid d = true := by cases d <;> rfl

theorem digest_putDigest (d e : DigestReg) (g : Digest) :
    (s.putDigest d g).digest e = if e = d then g else s.digest e := by cases d <;> cases e <;> rfl

theorem valid_putDigest (d e : DigestReg) (g : Digest) :
    (s.putDigest d g).valid e = if e = d then true else s.valid e := by cases d <;> cases e <;> rfl

/-! ### Digest registers and tests under the updates every command ends with -/

@[simp] theorem digest_complete (d : DigestReg) : s.complete.digest d = s.digest d := by cases d <;> rfl
@[simp] theorem valid_complete (d : DigestReg) : s.complete.valid d = s.valid d := by cases d <;> rfl
@[simp] theorem digest_raise (d : DigestReg) (c : FaultCode) : (s.raise c).digest d = s.digest d := by cases d <;> rfl
@[simp] theorem valid_raise (d : DigestReg) (c : FaultCode) : (s.raise c).valid d = s.valid d := by cases d <;> rfl
@[simp] theorem digest_setDout (d : DigestReg) (v : Byte) : (s.setDout v).digest d = s.digest d := by cases d <;> rfl
@[simp] theorem valid_setDout (d : DigestReg) (v : Byte) : (s.setDout v).valid d = s.valid d := by cases d <;> rfl
@[simp] theorem finalized_complete : s.complete.finalized = s.finalized := rfl
@[simp] theorem finalized_raise (c : FaultCode) : (s.raise c).finalized = s.finalized := rfl
@[simp] theorem lenFull_complete : s.complete.lenFull = s.lenFull := rfl
@[simp] theorem lenFull_raise (c : FaultCode) : (s.raise c).lenFull = s.lenFull := rfl

theorem finalized_iff : s.finalized = true ↔ s.phase = .finalized := by simp [finalized]
theorem not_finalized_iff : s.finalized = false ↔ s.phase = .accumulating := by
  cases h : s.phase <;> simp [finalized, h]
theorem primed_iff : s.primed = true ↔ 5 ≤ s.len.toNat := by simp [primed]
theorem lenFull_iff : s.lenFull = true ↔ s.len.toNat = 2 ^ 32 - 1 := by
  simp [lenFull, ← BitVec.toNat_inj]
theorem halfByte_iff : s.halfByte = true ↔ s.lpos.toNat % 2 = 1 := by simp [halfByte]
theorem loadFull_iff : s.loadFull = true ↔ 70 ≤ s.lpos.toNat := by simp [loadFull]
theorem loadComplete_iff : s.loadComplete = true ↔ s.lbad = false ∧ s.lpos.toNat = 70 := by
  simp [loadComplete, ← BitVec.toNat_inj]

end Arch

/-! ### The host's side -/

namespace State

variable (s : State)

@[simp] theorem setPending_toArch (l : List HostAction) : (s.setPending l).toArch = s.toArch := rfl
@[simp] theorem setPending_pending (l : List HostAction) : (s.setPending l).pending = l := rfl
@[simp] theorem reset_toArch : State.reset.toArch = Arch.reset := rfl
@[simp] theorem reset_pending : State.reset.pending = [] := rfl

end State

end Sys2Proof.Machine
end

