-- ==== Sys2Proof/Laws/Ops.lean ====
section
/-! SUPPORT. One lemma for each shared operation that says everything it can do. -/

namespace Sys2Proof.Machine

/-! ### Faults -/

/-- The bit a fault sets in `ERR` is the bit of its code, and no other (R33). -/
theorem errBit_getLsbD (c : FaultCode) (k : Nat) : c.errBit.getLsbD k = decide (k = c.code.toNat) := by
  by_cases hk : k < 8
  · have : ∀ k' : Fin 8, c.errBit.getLsbD k'.val = decide (k'.val = c.code.toNat) := by cases c <;> decide
    exact this ⟨k, hk⟩
  · have hc : c.code.toNat < 8 := by cases c <;> decide
    have : k ≠ c.code.toNat := by omega
    simp [this, BitVec.getLsbD_of_ge _ _ (Nat.le_of_not_lt hk)]

theorem raise_err_getLsbD (c : FaultCode) (s : Arch) (k : Nat) :
    (s.raise c).err.getLsbD k = (s.err.getLsbD k || decide (k = c.code.toNat)) := by
  simp [errBit_getLsbD]

/-- Fault codes are 1 to 6 (R146). -/
theorem code_range (c : FaultCode) : 1 ≤ c.code.toNat ∧ c.code.toNat ≤ 6 := by cases c <;> decide

/-! ### Histogram -/

theorem memReadHist_write (h : Vector Counter 256) (i j : Byte) (v : Counter) :
    memReadHist (memWriteHist h i v) j = if i = j then v else memReadHist h j := by
  unfold memReadHist memWriteHist
  rw [Vector.getElem_set]
  simp [BitVec.toNat_inj]

theorem memReadHist_bump (h : Vector Counter 256) (i j : Byte) :
    memReadHist (bump h i) j = memReadHist h j + if i = j then 1 else 0 := by
  unfold bump
  rw [memReadHist_write]
  split <;> simp_all

/-- A bucket goes up by the number of times it was named (spec/20_memory.md R53). -/
theorem memReadHist_bumpAll (is : List Byte) (h : Vector Counter 256) (j : Byte) :
    memReadHist (bumpAll h is) j = memReadHist h j + BitVec.ofNat 35 (is.count j) := by
  induction is generalizing h with
  | nil => simp [bumpAll]
  | cons i is ih =>
    have hstep : bumpAll h (i :: is) = bumpAll (bump h i) is := rfl
    rw [hstep, ih, memReadHist_bump, List.count_cons, BitVec.ofNat_add]
    by_cases hij : i = j
    · simp only [hij, beq_self_eq_true, if_true, BitVec.add_assoc]
      exact congrArg _ (BitVec.add_comm _ _)
    · simp [hij]

/-! ### The ports -/

theorem nextAction_nil {s : State} (h : s.pending = []) : s.nextAction = none := by simp [State.nextAction, h]

theorem nextAction_cons {s : State} {a : HostAction} {rest : List HostAction} (h : s.pending = a :: rest) :
    s.nextAction = some (a, s.setPending rest) := by simp [State.nextAction, h]

theorem nextAction_present (w : Word) (s : State) : (s.present w).nextAction = some (.issue w, s) := rfl

/-- The hardware takes a command as an input, whatever the host does next: `exec` is `perform` on the architectural state
(spec/10_state.md R21). -/
theorem exec_eq (i : Instr) (s : State) : exec i s = s.commit (perform i s.toArch) := by cases i <;> rfl

theorem exec_next {i : Instr} {s t : State} : exec i s = .next t ↔ t = { s with toArch := perform i s.toArch } := by
  simp [exec_eq, State.commit, eq_comm]

/-- Everything one step can be. -/
theorem step_cases (s : State) :
    (s.pending = [] ∧ step s = .next s) ∨
    (∃ rest, s.pending = .rst :: rest ∧ step s = .next { Arch.reset with pending := rest }) ∨
    (∃ n rest, s.pending = .readStatus n :: rest ∧ step s = .next { s with pending := rest }) ∨
    (∃ w rest i, s.pending = .issue w :: rest ∧ decode w = .ok i ∧
      step s = .next { perform i s.toArch with pending := rest }) ∨
    (∃ w rest r, s.pending = .issue w :: rest ∧ decode w = .error r ∧
      step s = .next { s.toArch.raise .illegal with pending := rest }) := by
  unfold step
  cases h : s.pending with
  | nil => exact .inl ⟨rfl, by simp [nextAction_nil h, holdState]⟩
  | cons a rest =>
    rw [nextAction_cons h]
    cases a with
    | rst => exact .inr (.inl ⟨rest, rfl, rfl⟩)
    | readStatus n => exact .inr (.inr (.inl ⟨n, rest, rfl, rfl⟩))
    | issue w =>
      cases hd : decode w with
      | ok i => exact .inr (.inr (.inr (.inl ⟨w, rest, i, rfl, hd, by simp only [hd]; exact exec_eq i _⟩)))
      | error r => exact .inr (.inr (.inr (.inr ⟨w, rest, r, rfl, hd, by simp only [hd]; rfl⟩)))

/-! ### The effects: everything each command can do -/

theorem feedEffect_cases (T : Byte → Byte) (b : Byte) (s : Arch) :
    (s.phase = .finalized ∧ feedEffect T b s = s.raise .phase) ∨
    (s.phase = .accumulating ∧ s.len.toNat = 2 ^ 32 - 1 ∧ feedEffect T b s = s.raise .overflow) ∨
    (s.phase = .accumulating ∧ s.len.toNat < 2 ^ 32 - 1 ∧ feedEffect T b s = (absorb T b s).complete) := by
  unfold feedEffect
  by_cases hf : s.finalized = true
  · exact .inl ⟨s.finalized_iff.mp hf, by simp [hf]⟩
  · have hf' : s.finalized = false := by simpa using hf
    by_cases hl : s.lenFull = true
    · exact .inr (.inl ⟨s.not_finalized_iff.mp hf', s.lenFull_iff.mp hl, by simp [hf', hl]⟩)
    · have hl' : s.lenFull = false := by simpa using hl
      refine .inr (.inr ⟨s.not_finalized_iff.mp hf', ?_, by simp [hf', hl']⟩)
      have h1 : ¬ s.len.toNat = 2 ^ 32 - 1 := fun h => hl (s.lenFull_iff.mpr h)
      have h2 := s.len.isLt
      omega

theorem finEffect_cases (d : DigestReg) (s : Arch) :
    (s.phase = .finalized ∧ finEffect d s = s.raise .phase) ∨
    (s.phase = .accumulating ∧ finEffect d s = ((s.putDigest d (digestOf s)).setPhase .finalized).complete) := by
  unfold finEffect
  by_cases hf : s.finalized = true
  · exact .inl ⟨s.finalized_iff.mp hf, by simp [hf]⟩
  · have hf' : s.finalized = false := by simpa using hf
    exact .inr ⟨s.not_finalized_iff.mp hf', by simp [hf']⟩

theorem ldbEffect_cases (v : Byte) (s : Arch) :
    ((s.lbad = true ∨ s.lpos.toNat % 2 = 1 ∨ 70 ≤ s.lpos.toNat) ∧ ldbEffect v s = s.spoilLoad) ∨
    (s.lbad = false ∧ s.lpos.toNat % 2 = 0 ∧ s.lpos.toNat < 70 ∧
      ldbEffect v s = ((s.setLbuf (memWriteLbuf s.lbuf (s.lpos.toNat / 2) v)).setLpos (s.lpos + 2)).complete) := by
  unfold ldbEffect
  by_cases h : (s.lbad || s.halfByte || s.loadFull) = true
  · refine .inl ⟨?_, by simp [h]⟩
    simpa [s.halfByte_iff, s.loadFull_iff, or_assoc] using h
  · have h' := h
    simp only [Bool.or_eq_true, s.halfByte_iff, s.loadFull_iff, not_or] at h'
    exact .inr ⟨by simpa using h'.1.1, by omega, by omega, if_neg h⟩

theorem ldxEffect_cases (c : Byte) (s : Arch) :
    ((s.lbad = true ∨ hexVal c = none ∨ 70 ≤ s.lpos.toNat) ∧ ldxEffect c s = s.spoilLoad) ∨
    (∃ n, hexVal c = some n ∧ s.lbad = false ∧ s.lpos.toNat < 70 ∧
      ldxEffect c s = ((s.setLbuf (memWriteLbuf s.lbuf (s.lpos.toNat / 2) (loadedNibble s n))).setLpos
        (s.lpos + 1)).complete) := by
  unfold ldxEffect
  cases hc : hexVal c with
  | none => exact .inl ⟨.inr (.inl rfl), rfl⟩
  | some n =>
    by_cases h : (s.lbad || s.loadFull) = true
    · refine .inl ⟨?_, by simp [h]⟩
      simpa [s.loadFull_iff] using h
    · have h' := h
      simp only [Bool.or_eq_true, s.loadFull_iff, not_or] at h'
      exact .inr ⟨n, rfl, by simpa using h'.1, by omega, if_neg h⟩

theorem ldcEffect_cases (d : DigestReg) (s : Arch) :
    (s.lbad = false ∧ s.lpos.toNat = 70 ∧ ldcEffect d s = (s.closeLoad.putDigest d (unwire s.lbuf)).complete) ∨
    ((s.lbad = true ∨ s.lpos.toNat ≠ 70) ∧ ldcEffect d s = s.closeLoad.raise .parse) := by
  unfold ldcEffect
  by_cases h : s.loadComplete = true
  · exact .inl ⟨(s.loadComplete_iff.mp h).1, (s.loadComplete_iff.mp h).2, by simp [h]⟩
  · refine .inr ⟨?_, by simp [h]⟩
    rw [s.loadComplete_iff, not_and_or] at h
    simpa using h

theorem rdbEffect_cases (d : DigestReg) (i : Byte) (s : Arch) :
    (34 < i.toNat ∧ rdbEffect d i s = s.raise .index) ∨
    (i.toNat ≤ 34 ∧ s.valid d = false ∧ rdbEffect d i s = s.raise .invalid) ∨
    (i.toNat ≤ 34 ∧ s.valid d = true ∧
      rdbEffect d i s = (s.setDout ((wire (s.digest d)).getD i.toNat 0)).complete) := by
  unfold rdbEffect wireIndexBad
  by_cases hi : 34 < i.toNat
  · exact .inl ⟨hi, by simp [hi]⟩
  · cases hv : s.valid d
    · exact .inr (.inl ⟨by omega, rfl, by simp [hi]⟩)
    · exact .inr (.inr ⟨by omega, rfl, by simp [hi]⟩)

theorem rdxEffect_cases (d : DigestReg) (i : Byte) (s : Arch) :
    (69 < i.toNat ∧ rdxEffect d i s = s.raise .index) ∨
    (i.toNat ≤ 69 ∧ s.valid d = false ∧ rdxEffect d i s = s.raise .invalid) ∨
    (i.toNat ≤ 69 ∧ s.valid d = true ∧ rdxEffect d i s = (s.setDout (textChar (s.digest d) i.toNat)).complete) := by
  unfold rdxEffect textIndexBad
  by_cases hi : 69 < i.toNat
  · exact .inl ⟨hi, by simp [hi]⟩
  · cases hv : s.valid d
    · exact .inr (.inl ⟨by omega, rfl, by simp [hi]⟩)
    · exact .inr (.inr ⟨by omega, rfl, by simp [hi]⟩)

theorem cmpEffect_cases (P : PerCodeDistance) (l : Bool) (s : Arch) :
    ((s.dv0 = false ∨ s.dv1 = false) ∧ cmpEffect P l s = s.raise .invalid) ∨
    (s.dv0 = true ∧ s.dv1 = true ∧
      cmpEffect P l s = (s.setDist (BitVec.ofNat 16 (distance P s.d0 s.d1 l))).complete) := by
  unfold cmpEffect
  cases h0 : s.dv0 <;> cases h1 : s.dv1 <;> simp

end Sys2Proof.Machine
end

