-- ==== Sys2Proof/Laws/Accumulator.lean ====
section
/-! SUPPORT. What a successful `FEED` does and what it leaves alone (spec/41_accumulator.md R84, R85). -/

namespace Sys2Proof.Machine

variable (T : Byte → Byte) (b : Byte) (s : Arch)

/-- `FEED` writes the window, the length, the checksum and the histogram, and nothing else (R84). -/
theorem absorb_frame : absorb T b s =
    { s with hist := (absorb T b s).hist, window := shiftWindow s.window b, len := s.len + 1,
             cksum := (absorb T b s).cksum } := by
  unfold absorb
  by_cases h : (s.consume b).primed = true
  · simp only [h, if_true]; rfl
  · simp only [h]; rfl

@[simp] theorem absorb_window : (absorb T b s).window = shiftWindow s.window b := by rw [absorb_frame]
@[simp] theorem absorb_len : (absorb T b s).len = s.len + 1 := by rw [absorb_frame]
@[simp] theorem absorb_phase : (absorb T b s).phase = s.phase := by rw [absorb_frame]
@[simp] theorem absorb_d0 : (absorb T b s).d0 = s.d0 := by rw [absorb_frame]
@[simp] theorem absorb_d1 : (absorb T b s).d1 = s.d1 := by rw [absorb_frame]
@[simp] theorem absorb_dv0 : (absorb T b s).dv0 = s.dv0 := by rw [absorb_frame]
@[simp] theorem absorb_dv1 : (absorb T b s).dv1 = s.dv1 := by rw [absorb_frame]
@[simp] theorem absorb_lbuf : (absorb T b s).lbuf = s.lbuf := by rw [absorb_frame]
@[simp] theorem absorb_lpos : (absorb T b s).lpos = s.lpos := by rw [absorb_frame]
@[simp] theorem absorb_lbad : (absorb T b s).lbad = s.lbad := by rw [absorb_frame]
@[simp] theorem absorb_dout : (absorb T b s).dout = s.dout := by rw [absorb_frame]
@[simp] theorem absorb_hout : (absorb T b s).hout = s.hout := by rw [absorb_frame]
@[simp] theorem absorb_dist : (absorb T b s).dist = s.dist := by rw [absorb_frame]
@[simp] theorem absorb_err : (absorb T b s).err = s.err := by rw [absorb_frame]
@[simp] theorem absorb_lerr : (absorb T b s).lerr = s.lerr := by rw [absorb_frame]

/-- Before five bytes are in, no step runs (R87). -/
theorem absorb_unprimed (h : (s.len + 1).toNat < 5) :
    (absorb T b s).hist = s.hist ∧ (absorb T b s).cksum = s.cksum := by
  have hp : (s.consume b).primed = false := by simp [Arch.primed]; simpa using h
  simp [absorb, hp]

/-- From the fifth byte on, one accumulation step runs on the shifted window (R85). -/
theorem absorb_primed (h : 5 ≤ (s.len + 1).toNat) :
    (absorb T b s).hist = bumpAll s.hist (bucketIndices T (shiftWindow s.window b)) ∧
    (absorb T b s).cksum = substHash T 0 b s.window[0] s.cksum := by
  have hp : (s.consume b).primed = true := by simp [Arch.primed]; simpa using h
  simp [absorb, hp, accStep, shiftWindow]

end Sys2Proof.Machine
end

