-- ==== Sys2Proof/Laws/Exec.lean ====
section
/-! SUPPORT. The inversion lemma of `perform`: the one place where the eleven meanings are taken apart. -/

namespace Sys2Proof.Machine

/-- Everything one command can do: the case of each command, with the conditions it is under and the architectural state it
leaves (spec/60_exceptions.md R163 and the command rules). Later proofs cite this and `exec_next`, and do not unfold
`exec`. -/
theorem perform_cases (i : Instr) (s t : Arch) (h : perform i s = t) :
    (i = .nop ∧ t = s.complete) ∨ (i = .clr ∧ t = s.clearAccumulator.complete) ∨
    (∃ k, i = .hrd k ∧ t = (s.setHout (memReadHist s.hist k)).complete) ∨
    (∃ b, i = .feed b ∧ s.phase = .finalized ∧ t = s.raise .phase) ∨
    (∃ b, i = .feed b ∧ s.phase = .accumulating ∧ s.len.toNat = 2 ^ 32 - 1 ∧ t = s.raise .overflow) ∨
    (∃ b, i = .feed b ∧ s.phase = .accumulating ∧ s.len.toNat < 2 ^ 32 - 1 ∧ t = (absorb memReadSbox b s).complete) ∨
    (∃ d, i = .fin d ∧ s.phase = .finalized ∧ t = s.raise .phase) ∨
    (∃ d, i = .fin d ∧ s.phase = .accumulating ∧ t = ((s.putDigest d (digestOf s)).setPhase .finalized).complete) ∨
    (∃ v, i = .ldb v ∧ (s.lbad = true ∨ s.lpos.toNat % 2 = 1 ∨ 70 ≤ s.lpos.toNat) ∧ t = s.spoilLoad) ∨
    (∃ v, i = .ldb v ∧ s.lbad = false ∧ s.lpos.toNat % 2 = 0 ∧ s.lpos.toNat < 70 ∧
      t = ((s.setLbuf (memWriteLbuf s.lbuf (s.lpos.toNat / 2) v)).setLpos (s.lpos + 2)).complete) ∨
    (∃ c, i = .ldx c ∧ (s.lbad = true ∨ hexVal c = none ∨ 70 ≤ s.lpos.toNat) ∧ t = s.spoilLoad) ∨
    (∃ c n, i = .ldx c ∧ hexVal c = some n ∧ s.lbad = false ∧ s.lpos.toNat < 70 ∧
      t = ((s.setLbuf (memWriteLbuf s.lbuf (s.lpos.toNat / 2) (loadedNibble s n))).setLpos (s.lpos + 1)).complete) ∨
    (∃ d, i = .ldc d ∧ s.lbad = false ∧ s.lpos.toNat = 70 ∧ t = (s.closeLoad.putDigest d (unwire s.lbuf)).complete) ∨
    (∃ d, i = .ldc d ∧ (s.lbad = true ∨ s.lpos.toNat ≠ 70) ∧ t = s.closeLoad.raise .parse) ∨
    (∃ d k, i = .rdb d k ∧ 34 < k.toNat ∧ t = s.raise .index) ∨
    (∃ d k, i = .rdb d k ∧ k.toNat ≤ 34 ∧ s.valid d = false ∧ t = s.raise .invalid) ∨
    (∃ d k, i = .rdb d k ∧ k.toNat ≤ 34 ∧ s.valid d = true ∧
      t = (s.setDout ((wire (s.digest d)).getD k.toNat 0)).complete) ∨
    (∃ d k, i = .rdx d k ∧ 69 < k.toNat ∧ t = s.raise .index) ∨
    (∃ d k, i = .rdx d k ∧ k.toNat ≤ 69 ∧ s.valid d = false ∧ t = s.raise .invalid) ∨
    (∃ d k, i = .rdx d k ∧ k.toNat ≤ 69 ∧ s.valid d = true ∧ t = (s.setDout (textChar (s.digest d) k.toNat)).complete) ∨
    (∃ l, i = .cmp l ∧ (s.dv0 = false ∨ s.dv1 = false) ∧ t = s.raise .invalid) ∨
    (∃ l, i = .cmp l ∧ s.dv0 = true ∧ s.dv1 = true ∧
      t = (s.setDist (BitVec.ofNat 16 (distance configuredPd s.d0 s.d1 l))).complete) := by
  subst h
  cases i with
  | nop => exact .inl ⟨rfl, rfl⟩
  | clr => exact .inr (.inl ⟨rfl, rfl⟩)
  | hrd k => exact .inr (.inr (.inl ⟨k, rfl, rfl⟩))
  | feed b =>
    rcases feedEffect_cases memReadSbox b s with ⟨h1, h2⟩ | ⟨h1, h3, h2⟩ | ⟨h1, h3, h2⟩
    · exact .inr (.inr (.inr (.inl ⟨b, rfl, h1, h2⟩)))
    · exact .inr (.inr (.inr (.inr (.inl ⟨b, rfl, h1, h3, h2⟩))))
    · exact .inr (.inr (.inr (.inr (.inr (.inl ⟨b, rfl, h1, h3, h2⟩)))))
  | fin d => rcases finEffect_cases d s with ⟨h1, h2⟩ | ⟨h1, h2⟩ <;> simp [perform, *]
  | ldb v => rcases ldbEffect_cases v s with ⟨h1, h2⟩ | ⟨h1, h3, h4, h2⟩ <;> simp [perform, *]
  | ldx c => rcases ldxEffect_cases c s with ⟨h1, h2⟩ | ⟨n, h1, h3, h4, h2⟩ <;> simp [perform, *]
  | ldc d => rcases ldcEffect_cases d s with ⟨h1, h3, h2⟩ | ⟨h1, h2⟩ <;> simp [perform, *]
  | rdb d i => rcases rdbEffect_cases d i s with ⟨h1, h2⟩ | ⟨h1, h3, h2⟩ | ⟨h1, h3, h2⟩ <;> simp [perform, *]
  | rdx d i => rcases rdxEffect_cases d i s with ⟨h1, h2⟩ | ⟨h1, h3, h2⟩ | ⟨h1, h3, h2⟩ <;> simp [perform, *]
  | cmp l => rcases cmpEffect_cases configuredPd l s with ⟨h1, h2⟩ | ⟨h1, h3, h2⟩ <;> simp [perform, *]

end Sys2Proof.Machine
end

