-- ==== Sys2Proof/Laws/Codec.lean ====
section
/-! SUPPORT. The elements of the wire format and of the loader buffer (spec/43_digest_codec.md R115, R121, R122). -/

namespace Sys2Proof.Machine

@[simp] theorem wire_getElem (g : Digest) (i : Nat) (h : i < 35) : (wire g)[i] = wireByte g i := by simp [wire]

theorem wire_getD (g : Digest) (i : Nat) (h : i < 35) : (wire g).getD i 0 = wireByte g i := by simp [Vector.getD, h]

@[simp] theorem wireByte_zero (g : Digest) : wireByte g 0 = swap g.ck := rfl
@[simp] theorem wireByte_one (g : Digest) : wireByte g 1 = swap g.lc := rfl
@[simp] theorem wireByte_two (g : Digest) : wireByte g 2 = g.qr := rfl

theorem wireByte_body (g : Digest) (k : Nat) (h : k < 32) : wireByte g (k + 3) = g.body[k] := by
  simp [wireByte, Vector.getD, h]

@[simp] theorem unwire_ck (B : Vector Byte 35) : (unwire B).ck = swap B[0] := rfl
@[simp] theorem unwire_lc (B : Vector Byte 35) : (unwire B).lc = swap B[1] := rfl
@[simp] theorem unwire_qr (B : Vector Byte 35) : (unwire B).qr = B[2] := rfl

theorem unwire_body (B : Vector Byte 35) (k : Nat) (h : k < 32) : (unwire B).body[k] = B[3 + k] := by simp [unwire]

theorem memWriteLbuf_getElem (buf : Vector Byte 35) (n k : Nat) (v : Byte) (h : k < 35) :
    (memWriteLbuf buf n v)[k] = if k = n then v else buf[k] := by
  simp [memWriteLbuf, Vector.getElem_setIfInBounds, eq_comm]

theorem memReadLbuf_eq (buf : Vector Byte 35) (n : Nat) (h : n < 35) : memReadLbuf buf n = buf[n] := by
  simp [memReadLbuf, Vector.getD, h]

end Sys2Proof.Machine
end

