-- ==== Sys2Proof/Laws/PerInstr.lean ====
section
/-! SUPPORT. Statements about every instruction as syntax, one lemma per constructor. Family `WordFields`: the word of a
command carries the command's opcode in `op`, has `rsv = 0`, and breaks none of the must-be-zero rules (R60 to R62). -/

namespace Sys2Proof.Laws.WordFields

/-- The opcode of a command (R61). -/
def opcode : Instr → BitVec 4
  | .nop => 0x0
  | .clr => 0x1
  | .feed _ => 0x2
  | .fin _ => 0x3
  | .hrd _ => 0x4
  | .ldb _ => 0x5
  | .ldx _ => 0x6
  | .ldc _ => 0x7
  | .rdb _ _ => 0x8
  | .rdx _ _ => 0x9
  | .cmp _ => 0xA

/-- The fields of a command's word. -/
def Statement (i : Instr) : Prop :=
  opField (encode i) = opcode i ∧ rsvField (encode i) = 0#3 ∧ wordWellFormed (encode i) = true

theorem assemble_fields (op : BitVec 4) (s : Bool) (imm : Byte) :
    opField (assemble op s imm) = op ∧ rsvField (assemble op s imm) = 0#3 ∧
    selectorField (assemble op s imm) = s ∧ immField (assemble op s imm) = imm := by
  revert op s imm; decide +kernel

theorem nop : Statement .nop := by unfold Statement; decide
theorem clr : Statement .clr := by unfold Statement; decide
theorem feed (b : Byte) : Statement (.feed b) := by revert b; unfold Statement; decide +kernel
theorem fin (d : DigestReg) : Statement (.fin d) := by cases d <;> (unfold Statement; decide)
theorem hrd (i : Byte) : Statement (.hrd i) := by revert i; unfold Statement; decide +kernel
theorem ldb (v : Byte) : Statement (.ldb v) := by revert v; unfold Statement; decide +kernel
theorem ldx (c : Byte) : Statement (.ldx c) := by revert c; unfold Statement; decide +kernel
theorem ldc (d : DigestReg) : Statement (.ldc d) := by cases d <;> (unfold Statement; decide)
theorem rdb (d : DigestReg) (i : Byte) : Statement (.rdb d i) := by
  revert i; cases d <;> (unfold Statement; decide +kernel)
theorem rdx (d : DigestReg) (i : Byte) : Statement (.rdx d i) := by
  revert i; cases d <;> (unfold Statement; decide +kernel)
theorem cmp (l : Bool) : Statement (.cmp l) := by cases l <;> (unfold Statement; decide)

end Sys2Proof.Laws.WordFields
end

