-- ==== Sys2Proof/Tests/Slice0.lean ====
section
/-! SUPPORT. Small checks of the model against spec/95_test_vectors.md and the rules' own examples, and for every
obligation with hypotheses a named witness that meets them. Expected values are the spec's. The two permutations `SBOX_ID`
and `SBOX_AFF` of section 2.1 are fixtures of the tests, never the machine's table. -/

open Sys2Proof Sys2Proof.Machine

namespace Sys2Proof.Tests

/-! ### Fixtures -/

/-- `SBOX_ID`. -/
def sboxId (x : Byte) : Byte := x

/-- `SBOX_AFF[x] = (167 * x + 13) mod 256`. -/
def sboxAff (x : Byte) : Byte := 167 * x + 13

/-- What a command's outcome shows, when it is a next state. -/
def shown {α : Type} (r : Result) (view : State → α) : Option α :=
  match r with
  | .next t => some (view t)
  | .fault _ => none
  | .refused _ => none

/-- Five bytes in: a window, six counts, and a checksum. -/
def primedState : State :=
  { State.reset with
    hist := (Vector.replicate 256 0).set 3 6, window := #v[5, 4, 3, 2, 1], len := 5, cksum := 9 }

/-- The histogram `HIST[i] = i` of vector 2.4-a. -/
def rampHist : Vector Counter 256 := Vector.ofFn fun i => BitVec.ofNat 35 i.val

/-- The histogram of vector 2.5-f: 7 in every effective bucket. -/
def flatHist : Vector Counter 256 := Vector.ofFn fun i => if i.val < 128 then 7 else 0

/-- 32 effective buckets hold 9, the others 0: as many non-zero ones as a degenerate histogram can have (R100). -/
def sparseHist : Vector Counter 256 := Vector.ofFn fun i => if i.val < 32 then 9 else 0

/-- An accumulating state with a given histogram and length. -/
def filled (h : Vector Counter 256) (n : Length) : State := { State.reset with hist := h, len := n, cksum := 0x5A }

/-- The digest of vector 2.5-a. -/
def digestB : Digest :=
  ⟨0xCF, 0x0A, 0x12,
    #v[0x65, 0xac, 0x05, 0x03, 0x48, 0xb0, 0x1c, 0x09, 0xf0, 0x77, 0x01, 0x28, 0x01, 0xac, 0x40, 0x1b,
       0x48, 0x30, 0x8a, 0x59, 0x93, 0x90, 0x43, 0x7c, 0x30, 0xcd, 0xe3, 0x90, 0xab, 0x84, 0x40, 0x31]⟩

/-- `D[0]` holds the digest of vector 2.5-a; `D[1]` was never written. -/
def oneDigest : State := { State.reset with d0 := digestB, dv0 := true }

/-- Both digest registers hold the given digests. -/
def twoDigests (a b : Digest) : State := { State.reset with d0 := a, d1 := b, dv0 := true, dv1 := true }

/-- A state of the loader. -/
def loading (p : BitVec 7) (bad : Bool) : State := { State.reset with lpos := p, lbad := bad }

/-- A finalized state. -/
def finalizedState : State := { State.reset with phase := .finalized, dv0 := true }

/-- The byte counter is at its maximum. -/
def fullState : State := { State.reset with len := 0xFFFFFFFF }

/-! ### Decoding: words written out bit by bit from spec/30_encoding.md R60, R61 -/

theorem test_decode_nop : (decode 0b0000_000_0_00000000#16).toOption = some .nop := by decide
theorem test_decode_clr : (decode 0b0001_000_0_00000000#16).toOption = some .clr := by decide
theorem test_decode_feed : (decode 0b0010_000_0_01010100#16).toOption = some (.feed 0x54) := by decide
theorem test_decode_fin : (decode 0b0011_000_1_00000000#16).toOption = some (.fin .d1) := by decide
theorem test_decode_hrd : (decode 0b0100_000_0_11111011#16).toOption = some (.hrd 0xFB) := by decide
theorem test_decode_ldb : (decode 0b0101_000_0_11111100#16).toOption = some (.ldb 0xFC) := by decide
theorem test_decode_ldx : (decode 0b0110_000_0_01100110#16).toOption = some (.ldx 0x66) := by decide
theorem test_decode_ldc : (decode 0b0111_000_0_00000000#16).toOption = some (.ldc .d0) := by decide
theorem test_decode_rdb : (decode 0b1000_000_1_00100010#16).toOption = some (.rdb .d1 34) := by decide
theorem test_decode_rdx : (decode 0b1001_000_0_01000101#16).toOption = some (.rdx .d0 69) := by decide
theorem test_decode_cmp : (decode 0b1010_000_1_00000000#16).toOption = some (.cmp true) := by decide

/-- A legal word of `RDB` with an index out of range (2.8: 81FF). -/
theorem test_decode_rdb_any_index : (decode 0x81FF).toOption = some (.rdb .d1 255) := by decide

/-- 2.8: words that are ILLEGAL. -/
theorem test_decode_illegal :
    ([0x0001, 0x0100, 0x0200, 0x10FF, 0x1100, 0x2100, 0x2200, 0x2800, 0x3001, 0x3101, 0x3200, 0x4100, 0x5100] ++
     [0x6130, 0x7001, 0x7400, 0x8200, 0x8E00, 0x9200, 0xA001, 0xA200, 0xB000, 0xC123, 0xD000, 0xE000, 0xFFFF]).all
      (fun n => (decode (BitVec.ofNat 16 n)).toOption == none) = true := by decide +kernel

/-! ### WellFormed: an ill-formed word for each check, which the check and the decoder refuse -/

theorem test_check_opcode : WordCheck.opcodeAssigned 0xB000 = false ∧ wordWellFormed 0xB000 = false ∧
    (decode 0xB000).toOption = none := by decide
theorem test_check_reserved : WordCheck.reservedClear 0x8200 = false ∧ wordWellFormed 0x8200 = false ∧
    (decode 0x8200).toOption = none := by decide
theorem test_check_selector : WordCheck.selectorAllowed 0x2100 = false ∧ wordWellFormed 0x2100 = false ∧
    (decode 0x2100).toOption = none := by decide
theorem test_check_immediate : WordCheck.immediateAllowed 0x3001 = false ∧ wordWellFormed 0x3001 = false ∧
    (decode 0x3001).toOption = none := by decide
theorem test_check_accepts : wordWellFormed 0x91FF = true ∧ (Instr.rdx .d1 255).wellFormed = true := by decide

/-! ### SubstitutionHash (2.2) -/

theorem test_hash_rows_c_d : substHash sboxAff 0x00 0x71 0x20 0x00 = 0x2C ∧ substHash sboxAff 0x02 0x71 0x20 0x65 = 0x6F := by
  decide
theorem test_hash_salt : substHash sboxAff 0xFF 1 2 3 = 0x6A ∧ substHash sboxAff 0x00 1 2 3 = 0xE9 := by decide

/-! ### One step of each command -/

/-- 2.3-h. -/
theorem test_nop : shown (execNop { State.reset with lerr := 6, err := 0x40 }) (fun t => (t.lerr, t.err)) =
    some (0, 0x40) := by decide

/-- 2.3-f. -/
theorem test_clr : shown (execClr { primedState with hout := 2, dv0 := true })
    (fun t => (histSum t.hist, t.window, t.len, t.cksum, t.hout, t.dv0)) =
    some (0, #v[0, 0, 0, 0, 0], 0, 0, 2, true) := by decide +kernel

/-- 2.3-a, the row `LEN = 5`: the checksum and the six buckets 6F 4B 7C 36 A7 C5. -/
theorem test_feed_first_step :
    let t := feedEffect sboxAff 0x71 { Arch.reset with window := #v[0x20, 0x65, 0x68, 0x54, 0], len := 4 }
    (t.window, t.len, t.cksum, [0x6F, 0x4B, 0x7C, 0x36, 0xA7, 0xC5].map (fun i => t.hist[i]!.toNat), histSum t.hist) =
    (#v[0x71, 0x20, 0x65, 0x68, 0x54], 5, 0x2C, [1, 1, 1, 1, 1, 1], 6) := by decide +kernel

/-- R93 (d): the window (5, 4, 3, 2, 1) under `SBOX_ID` names bucket 0 three times, 0x0B twice and 1 once. -/
theorem test_feed_multiplicity :
    let t := feedEffect sboxId 5 { Arch.reset with window := #v[4, 3, 2, 1, 0], len := 5 }
    [0, 1, 0x0B].map (fun i => t.hist[i]!.toNat) = [3, 1, 2] := by decide +kernel

/-- R104 to R107, 2.5-f: equal counters give ratios 4 and 4 and an empty body; `lc = 13`. -/
theorem test_fin_flat : shown (execFin .d0 (filled flatHist 200))
    (fun t => (t.d0 == ⟨0x5A, 13, 0x44, Vector.replicate 32 0⟩, t.dv0, t.phase, t.lerr)) =
    some (true, true, .finalized, 0) := by decide +kernel

/-- 2.4-a with R104, R106, R107: `q = (31, 63, 95)`; 3100 div 95 = 32, 6300 div 95 = 66; buckets 0..3 have code 0 and
buckets 124..127 code 3. -/
theorem test_fin_ramp : shown (execFin .d1 (filled rampHist 50))
    (fun t => (t.d1.ck, t.d1.lc, t.d1.qr, t.d1.body[0], t.d1.body[31], t.dv0)) =
    some (0x5A, 9, 0x02, 0xFF, 0x00, false) := by decide +kernel

theorem test_hrd : shown (execHrd 3 primedState) (fun t => (t.hout, t.lerr)) = some (6, 0) := by decide +kernel

/-- R121. -/
theorem test_ldb : shown (execLdb 0xFC State.reset) (fun t => (t.lbuf[0], t.lpos, t.lerr)) = some (0xFC, 2, 0) := by decide

/-- 2.6-g. -/
theorem test_ldb_odd : shown (execLdb 0x12 (loading 1 false)) (fun t => (statusPort 0 t.toArch, statusPort 1 t.toArch)) =
    some (0x6030, 0x40) := by decide

/-- 2.6-f: `LDX 'C'` at an odd position. -/
theorem test_ldx : shown (execLdx 0x43 { State.reset with lbuf := (Vector.replicate 35 0).set 0 0xF0, lpos := 1 })
    (fun t => (t.lbuf[0], statusPort 0 t.toArch)) = some (0xFC, 0x0040) := by decide

/-- 2.6-f: `LDX 'g'`. -/
theorem test_ldx_bad : shown (execLdx 0x67 (loading 2 false)) (fun t => (statusPort 0 t.toArch, statusPort 1 t.toArch)) =
    some (0x6050, 0x40) := by decide

/-- 2.6-e (i), the commit. -/
theorem test_ldc : shown (execLdc .d1 { State.reset with lbuf := Vector.ofFn fun i => BitVec.ofNat 8 i.val, lpos := 70 })
    (fun t => (t.d1.ck, t.d1.lc, t.d1.qr, t.d1.body[0], t.d1.body[31], statusPort 0 t.toArch)) =
    some (0x00, 0x10, 0x02, 0x03, 0x22, 0x0008) := by decide

/-- 2.6-h: a spoilt load at `LPOS = 70` does not commit. -/
theorem test_ldc_bad : shown (execLdc .d1 (loading 70 true)) (fun t => (t.dv1, t.lpos, t.lbad, t.lerr)) =
    some (false, 0, false, 6) := by decide

/-- 2.6-b. -/
theorem test_rdb : [0, 1, 2, 3, 34].map (fun i => shown (execRdb .d0 i oneDigest) (fun t => t.dout)) =
    [some 0xFC, some 0xA0, some 0x12, some 0x65, some 0x31] := by decide

/-- 2.6-d: the index is tested before the valid bit. -/
theorem test_rdb_faults : shown (execRdb .d1 35 oneDigest) (fun t => t.lerr) = some 4 ∧
    shown (execRdb .d1 0 oneDigest) (fun t => t.lerr) = some 5 := by decide

/-- 2.6-c. -/
theorem test_rdx : [0, 1, 2, 3, 4, 5, 68, 69].map (fun i => shown (execRdx .d0 i oneDigest) (fun t => t.dout)) =
    [some 0x66, some 0x63, some 0x61, some 0x30, some 0x31, some 0x32, some 0x33, some 0x31] := by decide

/-- 2.6-d. -/
theorem test_rdx_index : shown (execRdx .d0 70 oneDigest) (fun t => (t.lerr, t.err)) = some (4, 0x10) := by decide

/-- 2.7-e, e3: 44 with the length term, 20 without. -/
theorem test_cmp_e3 :
    let s := twoDigests ⟨0x22, 10, 0x12, (Vector.replicate 32 0).set 0 0x31⟩ ⟨0x22, 12, 0x14, (Vector.replicate 32 0).set 0 0x40⟩
    (cmpEffect Config.defaultPd true s.toArch).dist = 44 ∧ (cmpEffect Config.defaultPd false s.toArch).dist = 20 := by decide

/-- 2.7-e, e1 and e2. -/
theorem test_cmp_e1_e2 :
    (cmpEffect Config.defaultPd true (twoDigests Digest.zero ⟨1, 128, 0x88, Vector.replicate 32 0xFF⟩).toArch).dist = 2473 ∧
    (cmpEffect Config.defaultPd false
      (twoDigests ⟨0x10, 0, 0x0F, Vector.replicate 32 0⟩ ⟨0x10, 255, 0xF0, Vector.replicate 32 0⟩).toArch).dist = 2 := by
  decide

/-- 2.5-e. -/
theorem test_length_code : [50, 57, 58, 656, 657, 3199, 3200, 3475, 3476, 65536, 4224283470, 4224283471, 4294967295].map lencode =
    [9, 9, 10, 15, 16, 22, 22, 22, 23, 53, 169, 170, 170] := by decide +kernel

/-- 2.4-e, 2.4-g by the reference procedure. -/
theorem test_reference_quartiles :
    referenceQuartiles (Vector.ofFn fun i => if i.val < 95 then 0 else 1) = ⟨0, 0, 1⟩ ∧
    referenceQuartiles (Vector.ofFn fun i =>
      if i.val < 31 then 0 else if i.val < 64 then 4 else if i.val < 96 then 8 else 20) = ⟨4, 4, 8⟩ := by decide +kernel

/-- 2.9: the status port after reset. -/
theorem test_reset_port : [0, 1, 2, 3, 4, 5, 6, 7].map (fun n => statusPort n Arch.reset) = [0, 0, 0, 0, 0, 0, 0, 0] := by
  decide

/-- The word `LDB 0xFC`, issued as the first thing after reset, runs. -/
theorem test_first_step : shown (step (State.reset.withFetchWord 16 0x50FC)) (fun t => (t.lbuf[0], t.lpos, t.pending)) =
    some (0xFC, 2, []) := by decide

/-! ### Witnesses: for every obligation with hypotheses, a concrete input that meets them, clause by clause -/

theorem witness_DecodeEncodeRoundTrip : (Instr.rdb .d1 255).wellFormed = true ∧ decode 0x81FF = .ok (.rdb .d1 255) :=
  ⟨by decide, rfl⟩

theorem witness_DecodeFollowsOpcodeMap : (⟨"RDB", 0x8000, 0xFE00⟩ : OpcodeRow) ∈ opcodeRows ∧
    decode 0x8023 = .ok (.rdb .d0 35) := ⟨by decide, rfl⟩

theorem witness_StepRunsDecodedCommand :
    (State.reset.present 0x6066).pending = .issue 0x6066 :: [] ∧ decode 0x6066 = .ok (.ldx 0x66) ∧
    decodeTableWord 16 0xA100 = some (.cmp true) := ⟨rfl, rfl, by decide⟩

theorem witness_HardwareStepTakesCommand :
    (primedState.present 0x5012).pending = .issue 0x5012 :: [] ∧ decode 0x5012 = .ok (.ldb 0x12) ∧
    decode 0x9200 = .error .reservedBits := ⟨rfl, rfl, rfl⟩

/-- 2.6-g as a program of three words, the last of them illegal: `STATUS = 0x1030`, `ERR = 0x42`. -/
theorem test_program : (fun t => (statusPort 0 t, statusPort 1 t)) (runWords [0x6061, 0x5012, 0x8200] Arch.reset) =
    (0x1030, 0x42) := by decide

theorem witness_IllegalWordOnlyRecorded :
    (State.reset.present 0x8200).pending = .issue 0x8200 :: [] ∧ decode 0x8200 = .error .reservedBits ∧
    0xB000 ≤ (0xB000#16).toNat ∧ 0xB000 ≤ (0xFFFF#16).toNat := ⟨rfl, rfl, by decide, by decide⟩

theorem witness_HostResetAndIdleSteps :
    (primedState.setPending [.rst, .issue 0x1000]).pending = .rst :: [.issue 0x1000] ∧
    (primedState.setPending [.readStatus 5]).pending = .readStatus 5 :: [] ∧ primedState.pending = [] := ⟨rfl, rfl, rfl⟩

/-- A state that meets the invariants with a non-empty accumulator. -/
theorem primedState_inv : primedState.Inv := by constructor <;> decide +kernel

theorem witness_StepKeepsInvariant :
    primedState.Inv ∧ step primedState = .next primedState := ⟨primedState_inv, rfl⟩

theorem witness_LposEvenWithoutLdx : (∀ c, Instr.ldx c ∉ [Instr.ldb 0xFC, .nop]) ∧ State.reset.lpos.toNat % 2 = 0 ∧
    ∃ t, runCommands [.ldb 0xFC, .nop] State.reset = .next t := ⟨by simp, rfl, _, rfl⟩

theorem witness_FeedAccumulates :
    (State.reset.phase = .accumulating ∧ State.reset.len.toNat < 2 ^ 32 - 1 ∧ State.reset.len.toNat + 1 < 5) ∧
    (filled rampHist 4).phase = .accumulating ∧ (filled rampHist 4).len.toNat < 2 ^ 32 - 1 ∧
    5 ≤ (filled rampHist 4).len.toNat + 1 ∧ (filled rampHist 0xFFFFFFFE).len.toNat < 2 ^ 32 - 1 := by
  refine ⟨⟨rfl, ?_, ?_⟩, rfl, ?_, ?_, ?_⟩ <;> decide

theorem witness_FeedRefused : finalizedState.phase = .finalized ∧ fullState.phase = .accumulating ∧
    fullState.len.toNat = 2 ^ 32 - 1 := ⟨rfl, rfl, by decide⟩

theorem witness_HistogramGrowth : primedState.Inv ∧ ∃ t, exec (.feed 7) primedState = .next t ∧ t.lerr = 0 :=
  ⟨primedState_inv, _, rfl, rfl⟩

theorem witness_FeedingComputesAcc : State.reset.accumulatorZero ∧
    ([0x54, 0x68, 0x65, 0x20, 0x71, 0x75, 0x69] : List Byte).length < 2 ^ 32 := ⟨⟨rfl, rfl, rfl, rfl, rfl⟩, by decide⟩

theorem witness_InterleavingIsIrrelevant : Instr.clr ∉ [Instr.feed 1, .nop, .ldx 0x30, .feed 2] ∧
    ∀ d, Instr.fin d ∉ [Instr.feed 1, .nop, .ldx 0x30, .feed 2] := by simp

theorem witness_AccumulatorAndLoaderIndependent :
    let s' : State := { primedState with dv0 := true, dout := 7, err := 0x40 }
    (∃ t, exec (.hrd 3) primedState = .next t) ∧ (∃ t', exec (.hrd 3) s' = .next t') ∧ primedState.sameAccumulator s'.toArch ∧
      primedState.sameLoader s'.toArch := ⟨⟨_, rfl⟩, ⟨_, rfl⟩, ⟨rfl, rfl, rfl, rfl, rfl⟩, ⟨rfl, rfl, rfl⟩⟩

theorem witness_FinOfSmallOrDegenerateInput :
    (filled rampHist 49).phase = .accumulating ∧ (filled rampHist 49).len.toNat < 50 ∧
    (filled sparseHist 50).phase = .accumulating ∧
    (List.range 128).countP (fun k => (filled sparseHist 50).hist.getD k 0 ≠ 0) ≤ 32 := by
  refine ⟨rfl, by decide, rfl, by decide +kernel⟩

theorem witness_FinWritesDigest :
    (filled rampHist 50).phase = .accumulating ∧ 50 ≤ (filled rampHist 50).len.toNat ∧
    sortsEffective (List.range 128) (fun k => ((filled rampHist 50).hist.getD k 0).toNat) ∧
    0 < (List.range 128).getD 95 0 := by
  have h : (List.range 128).map (fun k => ((filled rampHist 50).hist.getD k 0).toNat) = List.range 128 := by decide +kernel
  refine ⟨rfl, by decide, ⟨by rw [h], ?_⟩, by decide⟩
  exact List.pairwise_lt_range.imp fun h => Nat.le_of_lt h

theorem witness_FinRefused : finalizedState.phase = .finalized := rfl

theorem witness_UpperBucketsIgnored :
    (∀ k : Fin 128, (rampHist.set 200 5)[k.val] = (filled rampHist 50).hist[k.val]) ∧
    (∃ t, exec (.fin .d0) (filled rampHist 50) = .next t) ∧
    ∃ t', exec (.fin .d0) { filled rampHist 50 with hist := rampHist.set 200 5 } = .next t' := by
  exact ⟨by decide +kernel, ⟨_, rfl⟩, _, rfl⟩

/-- 771 bytes whose windows put every byte value behind two zeros. -/
def sweep : List Byte := (List.range 771).map fun n => if n % 3 = 0 then BitVec.ofNat 8 (n / 3) else 0

theorem sweep_getD (n : Nat) (h : n < 771) : sweep.getD n 0 = if n % 3 = 0 then BitVec.ofNat 8 (n / 3) else 0 := by
  simp [sweep, List.getD, h]

/-- Whatever permutation `SBOX` is, feeding `sweep` names every bucket. -/
theorem sweep_names_every_bucket (T : Equiv.Perm Byte) (i : Byte) : 0 < inputCount T sweep i := by
  obtain ⟨c, hc⟩ : ∃ c, substHash T 2 0 0 c = i :=
    ⟨T.symm i ^^^ T (T (2 ^^^ 0) ^^^ 0), by simp [substHash, BitVec.xor_comm]⟩
  obtain ⟨x, hx1, hx2, hxc⟩ : ∃ x, 1 ≤ x ∧ x ≤ 256 ∧ BitVec.ofNat 8 x = c := by
    by_cases h : c = 0
    · exact ⟨256, by omega, by omega, by rw [h]; decide⟩
    · refine ⟨c.toNat, ?_, ?_, by simp⟩
      · have : c.toNat ≠ 0 := fun h' => h (BitVec.eq_of_toNat_eq (by simpa using h'))
        omega
      · have := c.isLt; omega
  unfold inputCount
  rw [List.count_pos_iff, List.mem_flatMap]
  refine ⟨_, List.mem_map.mpr ⟨3 * x - 2, ?_, rfl⟩, List.mem_cons.mpr (Or.inl ?_)⟩
  · have : sweep.length = 771 := by simp [sweep]
    rw [List.mem_range, this]; omega
  · have h0 : sweep.getD (3 * x - 2 + 4) 0 = 0 := by rw [sweep_getD _ (by omega), if_neg (by omega)]
    have h1 : sweep.getD (3 * x - 2 + 3) 0 = 0 := by rw [sweep_getD _ (by omega), if_neg (by omega)]
    have h2 : sweep.getD (3 * x - 2 + 2) 0 = c := by
      rw [sweep_getD _ (by omega), if_pos (by omega), show (3 * x - 2 + 2) / 3 = x by omega, hxc]
    simp only [Vector.getElem_mk, List.getElem_toArray, List.getElem_cons_zero, List.getElem_cons_succ]
    rw [h0, h1, h2, hc]

/-- Any counts have an ascending arrangement, whose rank 95 is positive if all of them are. -/
theorem sorted_counts (f : Nat → Nat) : ∃ S, sortsEffective S f ∧ ((∀ k, 0 < f k) → 0 < S.getD 95 0) := by
  refine ⟨_, ⟨List.perm_insertionSort (· ≤ ·) _, List.pairwise_insertionSort _ _⟩, fun hf => ?_⟩
  generalize hS : List.insertionSort (· ≤ ·) ((List.range 128).map f) = S
  have hp : S.Perm ((List.range 128).map f) := hS ▸ List.perm_insertionSort _ _
  have h95 : 95 < S.length := by rw [hp.length_eq, List.length_map, List.length_range]; omega
  have hm : S[95] ∈ S := List.getElem_mem h95
  rw [hp.mem_iff, List.mem_map] at hm
  obtain ⟨k, _, hk⟩ := hm
  rw [List.getD_eq_getElem _ _ h95, ← hk]
  exact hf k

/-- Both outcomes of the hash of an input: the empty input, and `sweep` (R100 leaves its third quartile positive under
every `SBOX`). -/
theorem witness_HashingComputesDigest : State.reset.accumulatorZero ∧
    (([] : List Byte).length < 50 ∧ ∃ S, sortsEffective S (fun k => inputCount Config.sbox [] (BitVec.ofNat 8 k))) ∧
    sweep.length < 2 ^ 32 ∧ 50 ≤ sweep.length ∧
    ∃ S, sortsEffective S (fun k => inputCount Config.sbox sweep (BitVec.ofNat 8 k)) ∧ 0 < S.getD 95 0 := by
  have hl : sweep.length = 771 := by simp [sweep]
  obtain ⟨S0, h0, _⟩ := sorted_counts fun k => inputCount Config.sbox [] (BitVec.ofNat 8 k)
  obtain ⟨S, h, hpos⟩ := sorted_counts fun k => inputCount Config.sbox sweep (BitVec.ofNat 8 k)
  exact ⟨⟨rfl, rfl, rfl, rfl, rfl⟩, ⟨by decide, S0, h0⟩, by omega, by omega, S, h,
    hpos fun k => sweep_names_every_bucket _ _⟩

theorem witness_LengthCodeIsLogFormula : 1 ≤ 656 ∧ 656 ≤ 656 ∧ 657 ≤ 3199 ∧ 3199 ≤ 3199 ∧ 3200 < 2 ^ 32 ∧ 2 ^ 32 - 1 < 2 ^ 32 := by
  decide

theorem witness_LengthCodeRange : 50 ≤ 50 ∧ 50 ≤ 2 ^ 32 - 1 ∧ 2 ^ 32 - 1 < 2 ^ 32 := by decide

theorem witness_LdbAppendsByte :
    ((loading 0 false).lbad = false ∧ (loading 0 false).lpos.toNat % 2 = 0 ∧ (loading 0 false).lpos.toNat < 70) ∧
    ((loading 68 false).lbad = false ∧ (loading 68 false).lpos.toNat % 2 = 0 ∧ (loading 68 false).lpos.toNat < 70) ∧
    (loading 2 true).lbad = true ∧ (loading 69 false).lpos.toNat % 2 = 1 ∧ 70 ≤ (loading 70 false).lpos.toNat := by decide

theorem witness_LdxAppendsDigit :
    (hexVal 0x66 = some 15 ∧ (loading 0 false).lbad = false ∧ (loading 69 false).lpos.toNat < 70) ∧
    (loading 2 true).lbad = true ∧ hexVal 0x67 = none ∧ 70 ≤ (loading 70 false).lpos.toNat := by decide

theorem witness_LdcCommitsOrFaults :
    ((loading 70 false).lbad = false ∧ (loading 70 false).lpos.toNat = 70) ∧ (loading 70 true).lbad = true ∧
    (loading 69 false).lpos.toNat ≠ 70 := by decide

theorem witness_RdbReadsWireByte :
    ((34#8).toNat ≤ 34 ∧ oneDigest.valid .d0 = true) ∧ 34 < (35#8).toNat ∧ oneDigest.valid .d1 = false := by decide

theorem witness_RdxReadsHexCharacter :
    ((69#8).toNat ≤ 69 ∧ oneDigest.valid .d0 = true) ∧ 69 < (70#8).toNat ∧ oneDigest.valid .d1 = false := by decide

theorem witness_TextRoundTrip : oneDigest.valid .d0 = true ∧ oneDigest.loaderReady := ⟨rfl, rfl, rfl⟩

/-- Seventy digits, of both cases. -/
def seventyDigits : List Byte := (List.replicate 35 [0x66, 0x43]).flatten

theorem witness_ParseAcceptsSeventyDigits : oneDigest.loaderReady ∧
    ((List.replicate 35 [15, 12]).flatten : List Nibble).length = 70 ∧
    seventyDigits.map hexVal = ((List.replicate 35 [15, 12]).flatten : List Nibble).map some := by
  refine ⟨⟨rfl, rfl⟩, ?_, ?_⟩ <;> decide +kernel

theorem witness_ParseRefusesMalformedText : oneDigest.loaderReady ∧ (seventyDigits.drop 1).length ≠ 70 ∧
    (seventyDigits ++ [0x30]).length ≠ 70 ∧ ∃ c ∈ seventyDigits.set 69 0x67, hexVal c = none := by
  refine ⟨⟨rfl, rfl⟩, by decide, by decide, 0x67, by decide +kernel, by decide⟩

theorem witness_CmpStoresDistance :
    ((twoDigests digestB Digest.zero).dv0 = true ∧ (twoDigests digestB Digest.zero).dv1 = true) ∧ oneDigest.dv1 = false := by
  decide

theorem witness_ModDiffProperties : 0 < 256 ∧ 255 < 256 ∧ 3 < 16 ∧ 14 < 16 := by decide

theorem witness_FaultsFollowLegalityMatrix :
    matrixFault (.feed 1) State.reset.toArch = none ∧ matrixFault (.feed 1) fullState.toArch = some .overflow ∧
    matrixFault (.fin .d1) finalizedState.toArch = some .phase ∧ matrixFault (.rdb .d1 35) oneDigest.toArch = some .index ∧
    matrixFault (.rdx .d1 69) oneDigest.toArch = some .invalid ∧ matrixFault (.ldb 0) (loading 70 false).toArch = some .parse := by decide

theorem witness_FaultsArePrecise :
    (∃ t, exec (.ldc .d0) (loading 3 true) = .next t ∧ t.lerr ≠ 0) ∧
    ∃ t, exec (.hrd 3) primedState = .next t ∧ t.lerr = 0 := ⟨⟨_, rfl, by decide⟩, _, rfl, rfl⟩

theorem witness_ErrClearedOnlyByReset :
    let s : State := { oneDigest with err := 0x40, pending := [.issue 0x1000] }
    (∀ rest, s.pending ≠ .rst :: rest) ∧ (∃ t, step s = .next t) ∧ s.err.getLsbD 6 = true ∧ s.valid .d0 = true :=
  ⟨by simp, ⟨_, rfl⟩, by decide, by decide⟩

theorem witness_DigestWriters :
    (∃ t, exec (.ldc .d1) (loading 70 false) = .next t ∧ t.lerr = 0) ∧
    (∃ t, exec (.ldc .d1) (loading 69 false) = .next t ∧ t.lerr ≠ 0) ∧
    (∃ t, exec .clr oneDigest = .next t) ∧ oneDigest.valid .d0 = true :=
  ⟨⟨_, rfl, rfl⟩, ⟨_, rfl, by decide⟩, ⟨_, rfl⟩, rfl⟩

theorem witness_FrameOfEveryCommand : ∃ t, exec (.hrd 3) primedState = .next t := ⟨_, rfl⟩

theorem witness_ReadsAreIdempotent : (∃ t, exec (.rdx .d0 69) oneDigest = .next t) ∧
    ∃ t, exec (.cmp true) (twoDigests digestB Digest.zero) = .next t := ⟨⟨_, rfl⟩, _, rfl⟩

end Sys2Proof.Tests
end

section
/-! PROOFS. The accumulator under the invariant (spec/10_state.md R40 a, b): one increment raises the sum of the counters
by one as long as no counter wraps, and no counter wraps while the sum is below `2^35`. -/

namespace Sys2Proof.Machine

theorem getElem_toNat_le_histSum (h : Vector Counter 256) (i : Nat) (hi : i < 256) : h[i].toNat ≤ histSum h :=
  List.le_sum_of_mem (List.mem_map_of_mem (Vector.mem_toList_iff.mpr (Vector.getElem_mem hi)))

theorem histSum_replicate_zero : histSum (Vector.replicate 256 0) = 0 := by
  simp only [histSum, Vector.toList_replicate, List.map_replicate, List.sum_replicate]; rfl

theorem sum_set_add_getElem (L : List Nat) (n v : Nat) (hn : n < L.length) : (L.set n v).sum + L[n] = L.sum + v := by
  rw [List.sum_set, if_pos hn, ← List.sum_take_add_sum_drop L n, List.drop_eq_getElem_cons hn, List.sum_cons]
  omega

theorem histSum_write (h : Vector Counter 256) (i : Byte) (v : Counter) :
    histSum (memWriteHist h i v) + (memReadHist h i).toNat = histSum h + v.toNat := by
  have hset := sum_set_add_getElem (h.toList.map BitVec.toNat) i.toNat v.toNat (by simpa using i.isLt)
  simpa [histSum, memWriteHist, memReadHist, Vector.toList_set, List.map_set] using hset

theorem histSum_bump (h : Vector Counter 256) (i : Byte) (hlt : histSum h + 1 < 2 ^ 35) :
    histSum (bump h i) = histSum h + 1 := by
  have hle : (memReadHist h i).toNat ≤ histSum h := getElem_toNat_le_histSum h i.toNat i.isLt
  have hwrite := histSum_write h i (memReadHist h i + 1)
  have hinc : (memReadHist h i + 1).toNat = (memReadHist h i).toNat + 1 := by
    rw [BitVec.toNat_add]; exact Nat.mod_eq_of_lt (by simp; omega)
  unfold bump
  omega

theorem histSum_bumpAll (is : List Byte) (h : Vector Counter 256) (hlt : histSum h + is.length < 2 ^ 35) :
    histSum (bumpAll h is) = histSum h + is.length := by
  induction is generalizing h with
  | nil => rfl
  | cons i is ih =>
    rw [List.length_cons] at hlt ⊢
    have hone : histSum (bump h i) = histSum h + 1 := histSum_bump h i (by omega)
    calc histSum (bumpAll (bump h i) is) = histSum (bump h i) + is.length := ih _ (by omega)
      _ = histSum h + (is.length + 1) := by omega

/-- A successful `FEED` raises six counters from the fifth byte on, and none before (R84, R86). -/
theorem histSum_absorb (T : Byte → Byte) (b : Byte) (s : Arch) (hsum : histSum s.hist = 6 * (s.len.toNat - 4))
    (hlen : (s.len + 1).toNat = s.len.toNat + 1) :
    histSum (absorb T b s).hist = 6 * ((s.len + 1).toNat - 4) := by
  have hlt := s.len.isLt
  rcases Nat.lt_or_ge (s.len + 1).toNat 5 with h | h
  · rw [(absorb_unprimed T b s h).1]; omega
  · have hsix : (bucketIndices T (shiftWindow s.window b)).length = 6 := rfl
    rw [(absorb_primed T b s h).1, histSum_bumpAll _ _ (by omega)]; omega

/-- The window positions still to be filled stay 0 when the window shifts (R26, R83). -/
theorem shiftWindow_unfilled (w : Vector Byte 5) (b : Byte) (n : Nat) (hw : ∀ j : Fin 5, n ≤ j.val → w[j] = 0)
    (j : Fin 5) (hj : n + 1 ≤ j.val) : (shiftWindow w b)[j] = 0 := by
  match j with
  | 0 => simp at hj
  | 1 => exact hw 0 (Nat.le_of_succ_le_succ hj)
  | 2 => exact hw 1 (Nat.le_of_succ_le_succ hj)
  | 3 => exact hw 2 (Nat.le_of_succ_le_succ hj)
  | 4 => exact hw 3 (Nat.le_of_succ_le_succ hj)

end Sys2Proof.Machine
end

section
/-! PROOFS. The invariants of spec/10_state.md R40 hold after reset, every update the commands are made of keeps them, and
so does every step. -/

namespace Sys2Proof.Machine

namespace Arch.Inv

variable {s : Arch}

theorem reset : Arch.reset.Inv where
  sum_eq := histSum_replicate_zero
  counter_le i := by simp [Arch.reset]
  window_unfilled j _ := by simp [Arch.reset]
  cksum_unprimed _ := rfl
  lpos_le := by decide
  err_hardwired := by decide
  lerr_le := by decide
  lerr_recorded h := absurd rfl h
  finalized_valid h := by cases h

/-! ### Updates of one register outside the invariants -/

theorem setLbuf (h : s.Inv) (buf : Vector Byte 35) : (s.setLbuf buf).Inv := { h with }
theorem setLbad (h : s.Inv) (b : Bool) : (s.setLbad b).Inv := { h with }
theorem setDout (h : s.Inv) (v : Byte) : (s.setDout v).Inv := { h with }
theorem setHout (h : s.Inv) (v : Counter) : (s.setHout v).Inv := { h with }
theorem setDist (h : s.Inv) (v : BitVec 16) : (s.setDist v).Inv := { h with }

/-! ### Updates that an invariant speaks of -/

theorem setLpos (h : s.Inv) (p : BitVec 7) (hp : p.toNat ≤ 70) : (s.setLpos p).Inv := { h with lpos_le := hp }

theorem putDigest (h : s.Inv) (d : DigestReg) (g : Digest) : (s.putDigest d g).Inv := by
  cases d
  · exact { h with finalized_valid := fun _ => .inl rfl }
  · exact { h with finalized_valid := fun _ => .inr rfl }

theorem setPhase (h : s.Inv) (p : Phase) (hv : s.dv0 = true ∨ s.dv1 = true) : (s.setPhase p).Inv :=
  { h with finalized_valid := fun _ => hv }

theorem clearAccumulator (h : s.Inv) : s.clearAccumulator.Inv :=
  { h with
    sum_eq := reset.sum_eq
    counter_le := reset.counter_le
    window_unfilled := reset.window_unfilled
    cksum_unprimed := reset.cksum_unprimed
    finalized_valid := fun hp => by cases hp }

theorem complete (h : s.Inv) : s.complete.Inv :=
  { h with lerr_le := by simp, lerr_recorded := fun hne => absurd rfl hne }

/-- A fault sets a bit among 1 to 6 of `ERR`, the one `LERR` then names (R40 e, f). -/
theorem raise (h : s.Inv) (c : FaultCode) : (s.raise c).Inv :=
  have hc := code_range c
  { h with
    err_hardwired := by
      rw [raise_err_getLsbD, raise_err_getLsbD, h.err_hardwired.1, h.err_hardwired.2]
      simp; omega
    lerr_le := hc.2
    lerr_recorded := fun _ => by rw [raise_err_getLsbD]; simp }

/-- The counters cannot wrap below the maximal length: each is at most their sum, `6 * (LEN - 4)` (R40 a, b). -/
theorem absorb (h : s.Inv) (T : Byte → Byte) (b : Byte) (hlen : s.len.toNat < 2 ^ 32 - 1) :
    (Machine.absorb T b s).Inv := by
  have hinc : (s.len + 1).toNat = s.len.toNat + 1 := by
    rw [BitVec.toNat_add]; exact Nat.mod_eq_of_lt (by simp; omega)
  have hsum := histSum_absorb T b s h.sum_eq hinc
  rw [absorb_frame]
  refine { h with
    sum_eq := hsum
    counter_le := fun i => ?_
    window_unfilled := fun j hj => shiftWindow_unfilled s.window b s.len.toNat h.window_unfilled j (hinc ▸ hj)
    cksum_unprimed := fun hlt => (absorb_unprimed T b s hlt).2.trans (h.cksum_unprimed (by simp only at hlt; omega)) }
  exact (getElem_toNat_le_histSum (Machine.absorb T b s).hist i.val i.isLt).trans (by omega)

/-- Every command keeps the invariants: each of its outcomes is made of updates that keep them. -/
theorem perform (h : s.Inv) (i : Instr) : (Machine.perform i s).Inv := by
  cases i with
  | nop => exact h.complete
  | clr => exact h.clearAccumulator.complete
  | hrd k => exact (h.setHout _).complete
  | feed b =>
    rcases feedEffect_cases memReadSbox b s with ⟨_, heq⟩ | ⟨_, _, heq⟩ | ⟨_, hlen, heq⟩ <;> rw [Machine.perform, heq]
    · exact h.raise _
    · exact h.raise _
    · exact (h.absorb _ b hlen).complete
  | fin d =>
    rcases finEffect_cases d s with ⟨_, heq⟩ | ⟨_, heq⟩ <;> rw [Machine.perform, heq]
    · exact h.raise _
    · exact ((h.putDigest d _).setPhase _ (by cases d <;> simp [Arch.putDigest])).complete
  | ldb v =>
    rcases ldbEffect_cases v s with ⟨_, heq⟩ | ⟨_, heven, hlt, heq⟩ <;> rw [Machine.perform, heq]
    · exact (h.setLbad true).raise .parse
    · exact ((h.setLbuf _).setLpos _ (by bv_omega)).complete
  | ldx c =>
    rcases ldxEffect_cases c s with ⟨_, heq⟩ | ⟨n, _, _, hlt, heq⟩ <;> rw [Machine.perform, heq]
    · exact (h.setLbad true).raise .parse
    · exact ((h.setLbuf _).setLpos _ (by bv_omega)).complete
  | ldc d =>
    have hclose : s.closeLoad.Inv := (h.setLpos 0 (by simp)).setLbad false
    rcases ldcEffect_cases d s with ⟨_, _, heq⟩ | ⟨_, heq⟩ <;> rw [Machine.perform, heq]
    · exact (hclose.putDigest d _).complete
    · exact hclose.raise _
  | rdb d k =>
    rcases rdbEffect_cases d k s with ⟨_, heq⟩ | ⟨_, _, heq⟩ | ⟨_, _, heq⟩ <;> rw [Machine.perform, heq]
    · exact h.raise _
    · exact h.raise _
    · exact (h.setDout _).complete
  | rdx d k =>
    rcases rdxEffect_cases d k s with ⟨_, heq⟩ | ⟨_, _, heq⟩ | ⟨_, _, heq⟩ <;> rw [Machine.perform, heq]
    · exact h.raise _
    · exact h.raise _
    · exact (h.setDout _).complete
  | cmp l =>
    rcases cmpEffect_cases configuredPd l s with ⟨_, heq⟩ | ⟨_, _, heq⟩ <;> rw [Machine.perform, heq]
    · exact h.raise _
    · exact (h.setDist _).complete

end Arch.Inv

/-- Settles O12. -/
theorem resetMeetsInvariant : Obligations.ResetMeetsInvariant := Arch.Inv.reset

/-- Settles O13: an idle step and a status read leave the hardware alone, `rst` gives the reset state, and an issued word
runs its command or raises `ILLEGAL`. -/
theorem stepKeepsInvariant : Obligations.StepKeepsInvariant := by
  intro s t hinv hstep
  rcases step_cases s with ⟨_, heq⟩ | ⟨_, _, heq⟩ | ⟨_, _, _, heq⟩ | ⟨_, _, i, _, _, heq⟩ | ⟨_, _, _, _, _, heq⟩ <;>
    cases heq.symm.trans hstep
  · exact hinv
  · exact Arch.Inv.reset
  · exact hinv
  · exact hinv.perform i
  · exact hinv.raise .illegal

end Sys2Proof.Machine
end

section
/-! PROOFS. The step at the ports (spec/10_state.md R21), the reset values (R39) and the status port (R35, R36). -/

namespace Sys2Proof.Machine

theorem step_of_issue {s s' : State} {w : Word} {i : Instr} (hnext : s.nextAction = some (.issue w, s'))
    (hdec : decode w = .ok i) : step s = exec i s' := by
  simp [step, hnext, hdec]

theorem decodeTableWord_eq_some {nbits w : Nat} {i : Instr} :
    decodeTableWord nbits w = some i ↔ decode (tableWord nbits w) = .ok i := by
  unfold decodeTableWord
  cases decode (tableWord nbits w) <;> simp [Except.toOption]

/-- Settles O6: both states have the word as the host's next action. -/
theorem stepRunsDecodedCommand : Obligations.StepRunsDecodedCommand :=
  ⟨fun _ _ _ _ hpending hdec => step_of_issue (nextAction_cons hpending) hdec,
    fun s _ _ _ hdec => step_of_issue (nextAction_present _ s) (decodeTableWord_eq_some.mp hdec)⟩

theorem commandStep_of_ok {w : Word} {i : Instr} (hdec : decode w = .ok i) (a : Arch) :
    commandStep w a = perform i a := by
  simp [commandStep, hdec]

theorem commandStep_of_error {w : Word} {r : Reject} (hdec : decode w = .error r) (a : Arch) :
    commandStep w a = a.raise .illegal := by
  simp [commandStep, hdec]

/-- Settles O56: of the cases of a step only the two of an issued word are left, and in each `commandStep` makes the same
choice by `decode`. -/
theorem hardwareStepTakesCommand : Obligations.HardwareStepTakesCommand := by
  refine ⟨fun s w rest hpending => ?_, fun s w i hdec => ?_, fun a w r hdec => commandStep_of_error hdec a⟩
  · rcases step_cases s with ⟨h, _⟩ | ⟨_, h, _⟩ | ⟨_, _, h, _⟩ | ⟨_, _, i, h, hdec, hstep⟩ | ⟨_, _, r, h, hdec, hstep⟩ <;>
      cases h.symm.trans hpending
    · rw [hstep, commandStep_of_ok hdec]
    · rw [hstep, commandStep_of_error hdec]
  · rw [commandStep_of_ok hdec]; exact exec_eq i s

theorem digest_reset (d : DigestReg) : Arch.reset.digest d = Digest.zero := by cases d <;> rfl

theorem valid_reset (d : DigestReg) : Arch.reset.valid d = false := by cases d <;> rfl

/-- Settles O9: the elements of the four arrays are those of a constant vector, the other fields are 0 as they stand. -/
theorem resetStateIsZero : Obligations.ResetStateIsZero := by
  have hdigest (d : DigestReg) : (Arch.reset.digest d).ck = 0 ∧ (Arch.reset.digest d).lc = 0 ∧
      (Arch.reset.digest d).qr = 0 ∧ (∀ i : Fin 32, (Arch.reset.digest d).body[i] = 0) ∧ Arch.reset.valid d = false := by
    rw [digest_reset]
    exact ⟨rfl, rfl, rfl, fun i => Vector.getElem_replicate i.isLt, valid_reset d⟩
  exact ⟨rfl, fun i => Vector.getElem_replicate i.isLt, fun j => Vector.getElem_replicate j.isLt, rfl, rfl, rfl, hdigest,
    fun i => Vector.getElem_replicate i.isLt, rfl, rfl, rfl, rfl, rfl, rfl, rfl⟩

theorem toNat_append_eq_add {m n : Nat} (x : BitVec m) (y : BitVec n) : (x ++ y).toNat = 2 ^ n * x.toNat + y.toNat := by
  rw [BitVec.toNat_append, ← Nat.shiftLeft_add_eq_or_of_lt y.isLt, Nat.shiftLeft_eq, Nat.mul_comm]

theorem statusView_toNat (s : Arch) : (statusView s).toNat =
    s.phase.bit.toNat + 2 * s.primed.toNat + 4 * s.dv0.toNat + 8 * s.dv1.toNat + 16 * s.lbad.toNat +
      32 * s.lpos.toNat + 4096 * s.lerr.toNat := by
  simp only [statusView, toNat_append_eq_add, BitVec.toNat_ofBool]
  omega

theorem phase_bit_toNat (p : Phase) : p.bit.toNat = if p = .finalized then 1 else 0 := by cases p <;> rfl

theorem primed_toNat (s : Arch) : s.primed.toNat = if 5 ≤ s.len.toNat then 1 else 0 := by
  unfold Arch.primed; split <;> simp [*]

/-- The port shows bits 1 to 6 of `ERR` (R33, R36). -/
theorem errView_testBit (s : Arch) (k : Nat) :
    (errView s).toNat.testBit k = (s.err.getLsbD k && decide (1 ≤ k ∧ k ≤ 6)) := by
  have hmask : (0x7E#8).getLsbD k = decide (1 ≤ k ∧ k ≤ 6) := by
    rcases Nat.lt_or_ge k 8 with hk | hk
    · have : ∀ j : Fin 8, (0x7E#8).getLsbD j.val = decide (1 ≤ j.val ∧ j.val ≤ 6) := by decide
      exact this ⟨k, hk⟩
    · rw [BitVec.getLsbD_of_ge _ _ hk]; simp; omega
  rw [BitVec.testBit_toNat, errView, BitVec.getLsbD_and, hmask]

/-- Settles O11: register 0 is `statusView_toNat`, register 1 is `errView_testBit`, the others are fields as they stand. -/
theorem statusPortReads : Obligations.StatusPortReads := by
  refine fun s => ⟨?_, errView_testBit s, rfl, rfl, rfl, rfl, rfl, rfl⟩
  have hview : statusPort 0 s = (statusView s).toNat := rfl
  rw [hview, statusView_toNat, phase_bit_toNat, primed_toNat]
  simp only [Bool.toNat, Bool.cond_eq_ite, mul_ite, mul_one, mul_zero]

end Sys2Proof.Machine
end

section
/-! PROOFS. Which architectural elements each command may write (spec/10_state.md R17, R18, R23, R25 to R32). -/

namespace Sys2Proof.Machine

/-! ### The elements a command writes, one equation for each command -/

section Frames

variable (s : Arch)

theorem feedEffect_frame (T : Byte → Byte) (b : Byte) : feedEffect T b s =
    let t := feedEffect T b s
    { s with hist := t.hist, window := t.window, len := t.len, cksum := t.cksum, err := t.err, lerr := t.lerr } := by
  rcases feedEffect_cases T b s with ⟨_, h⟩ | ⟨_, _, h⟩ | ⟨_, _, h⟩ <;> rw [h]
  · rfl
  · rfl
  · rw [absorb_frame]; rfl

theorem finEffect_frame (d : DigestReg) : finEffect d s =
    let t := finEffect d s
    { s with phase := t.phase, d0 := t.d0, d1 := t.d1, dv0 := t.dv0, dv1 := t.dv1, err := t.err, lerr := t.lerr } := by
  rcases finEffect_cases d s with ⟨_, h⟩ | ⟨_, h⟩ <;> rw [h]
  · rfl
  · cases d <;> rfl

theorem ldbEffect_frame (v : Byte) : ldbEffect v s =
    let t := ldbEffect v s
    { s with lbuf := t.lbuf, lpos := t.lpos, lbad := t.lbad, err := t.err, lerr := t.lerr } := by
  rcases ldbEffect_cases v s with ⟨_, h⟩ | ⟨_, _, _, h⟩ <;> rw [h] <;> rfl

theorem ldxEffect_frame (c : Byte) : ldxEffect c s =
    let t := ldxEffect c s
    { s with lbuf := t.lbuf, lpos := t.lpos, lbad := t.lbad, err := t.err, lerr := t.lerr } := by
  rcases ldxEffect_cases c s with ⟨_, h⟩ | ⟨_, _, _, _, h⟩ <;> rw [h] <;> rfl

theorem ldcEffect_frame (d : DigestReg) : ldcEffect d s =
    let t := ldcEffect d s
    { s with d0 := t.d0, d1 := t.d1, dv0 := t.dv0, dv1 := t.dv1, lpos := t.lpos, lbad := t.lbad, err := t.err,
             lerr := t.lerr } := by
  rcases ldcEffect_cases d s with ⟨_, _, h⟩ | ⟨_, h⟩ <;> rw [h]
  · cases d <;> rfl
  · rfl

theorem rdbEffect_frame (d : DigestReg) (k : Byte) : rdbEffect d k s =
    let t := rdbEffect d k s
    { s with dout := t.dout, err := t.err, lerr := t.lerr } := by
  rcases rdbEffect_cases d k s with ⟨_, h⟩ | ⟨_, _, h⟩ | ⟨_, _, h⟩ <;> rw [h]
  · rfl
  · rfl
  · generalize (wire (s.digest d)).getD k.toNat 0 = v; rfl

theorem rdxEffect_frame (d : DigestReg) (k : Byte) : rdxEffect d k s =
    let t := rdxEffect d k s
    { s with dout := t.dout, err := t.err, lerr := t.lerr } := by
  rcases rdxEffect_cases d k s with ⟨_, h⟩ | ⟨_, _, h⟩ | ⟨_, _, h⟩ <;> rw [h] <;> rfl

theorem cmpEffect_frame (P : PerCodeDistance) (l : Bool) : cmpEffect P l s =
    let t := cmpEffect P l s
    { s with dist := t.dist, err := t.err, lerr := t.lerr } := by
  rcases cmpEffect_cases P l s with ⟨_, h⟩ | ⟨_, _, h⟩ <;> rw [h] <;> rfl

/-- `t` differs from `s` only in elements the command `i` may write (R17, R18, R23, R25 to R32); `ERR` and `LERR` are
written by every command. -/
structure WritesOnlyItsElements (i : Instr) (s t : Arch) : Prop where
  accumulator : i ≠ .clr → (∀ b, i ≠ .feed b) →
    t.hist = s.hist ∧ t.window = s.window ∧ t.len = s.len ∧ t.cksum = s.cksum
  phase : i ≠ .clr → (∀ d, i ≠ .fin d) → t.phase = s.phase
  digests : (∀ d, i ≠ .fin d) → (∀ d, i ≠ .ldc d) → t.sameDigests s
  loader : (∀ v, i ≠ .ldb v) → (∀ c, i ≠ .ldx c) → (∀ d, i ≠ .ldc d) → t.sameLoader s
  dout : (∀ d k, i ≠ .rdb d k) → (∀ d k, i ≠ .rdx d k) → t.dout = s.dout
  hout : (∀ k, i ≠ .hrd k) → t.hout = s.hout
  dist : (∀ l, i ≠ .cmp l) → t.dist = s.dist

theorem perform_writesOnlyItsElements (i : Instr) : WritesOnlyItsElements i s (perform i s) := by
  cases i with
  | nop => constructor <;> simp [perform, nopEffect, Arch.sameDigests, Arch.sameLoader]
  | clr => constructor <;> simp [perform, clrEffect, Arch.sameDigests, Arch.sameLoader]
  | hrd k => constructor <;> simp [perform, hrdEffect, Arch.sameDigests, Arch.sameLoader]
  | feed b => rw [perform, feedEffect_frame]; constructor <;> simp [Arch.sameDigests, Arch.sameLoader]
  | fin d => rw [perform, finEffect_frame]; constructor <;> simp [Arch.sameLoader]
  | ldb v => rw [perform, ldbEffect_frame]; constructor <;> simp [Arch.sameDigests]
  | ldx c => rw [perform, ldxEffect_frame]; constructor <;> simp [Arch.sameDigests]
  | ldc d => rw [perform, ldcEffect_frame]; constructor <;> simp
  | rdb d k => rw [perform, rdbEffect_frame]; constructor <;> simp [Arch.sameDigests, Arch.sameLoader]
  | rdx d k => rw [perform, rdxEffect_frame]; constructor <;> simp [Arch.sameDigests, Arch.sameLoader]
  | cmp l => rw [perform, cmpEffect_frame]; constructor <;> simp [Arch.sameDigests, Arch.sameLoader]

end Frames

/-- Settles O54: the clauses are fields of `WritesOnlyItsElements`. -/
theorem frameOfEveryCommand : Obligations.FrameOfEveryCommand := by
  intro i s t hexec
  cases exec_next.mp hexec
  have h := perform_writesOnlyItsElements s.toArch i
  exact ⟨h.accumulator, h.phase, h.loader, h.dout, h.hout, h.dist, rfl⟩

/-! ### The digest registers -/

theorem digest_valid_of_sameDigests {s t : Arch} (h : t.sameDigests s) (d : DigestReg) :
    t.digest d = s.digest d ∧ t.valid d = s.valid d := by
  obtain ⟨h0, h1, hv0, hv1⟩ := h
  cases d
  · exact ⟨h0, hv0⟩
  · exact ⟨h1, hv1⟩

theorem code_ne_zero (c : FaultCode) : c.code ≠ 0 := by cases c <;> decide

/-- A command leaves the digest registers alone, and is then no writer that completes, or it completes as the writer of
one of them. -/
theorem perform_digest_cases (s : Arch) (i : Instr) :
    ((perform i s).sameDigests s ∧ ∀ d, i = .fin d ∨ i = .ldc d → (perform i s).lerr ≠ 0) ∨
    (∃ d g, (i = .fin d ∨ i = .ldc d) ∧ (perform i s).lerr = 0 ∧ (perform i s).sameDigests (s.putDigest d g)) := by
  cases i with
  | fin d =>
    rcases finEffect_cases d s with ⟨_, h⟩ | ⟨_, h⟩ <;> rw [perform, h]
    · exact .inl ⟨⟨rfl, rfl, rfl, rfl⟩, fun _ _ => code_ne_zero .phase⟩
    · exact .inr ⟨d, _, .inl rfl, rfl, rfl, rfl, rfl, rfl⟩
  | ldc d =>
    rcases ldcEffect_cases d s with ⟨_, _, h⟩ | ⟨_, h⟩ <;> rw [perform, h]
    · exact .inr ⟨d, unwire s.lbuf, .inr rfl, rfl, by cases d <;> exact ⟨rfl, rfl, rfl, rfl⟩⟩
    · exact .inl ⟨⟨rfl, rfl, rfl, rfl⟩, fun _ _ => code_ne_zero .parse⟩
  | _ => exact .inl ⟨(perform_writesOnlyItsElements s _).digests (by simp) (by simp), by simp⟩

/-- Settles O53: `D[d]` and `DV[d]` either stay, or are those of one `putDigest`, which sets the valid bit with the
digest it writes and leaves the other register. -/
theorem digestWriters : Obligations.DigestWriters := by
  intro i s t d hexec
  cases exec_next.mp hexec
  rcases perform_digest_cases s.toArch i with ⟨hsame, hfault⟩ | ⟨e, g, hwriter, hlerr, hsame⟩
  · have hkept := digest_valid_of_sameDigests hsame d
    exact ⟨fun _ _ => hkept, fun _ => hkept, fun h hlerr => absurd hlerr (hfault d h), fun hv => hkept.2.trans hv⟩
  · obtain ⟨hdigest, hvalid⟩ := digest_valid_of_sameDigests hsame d
    rw [Arch.digest_putDigest] at hdigest
    rw [Arch.valid_putDigest] at hvalid
    by_cases hde : d = e
    · subst hde
      rw [if_pos rfl] at hvalid
      exact ⟨fun hfin hldc => absurd hwriter (not_or.mpr ⟨hfin, hldc⟩), fun h => absurd hlerr h, fun _ _ => hvalid,
        fun _ => hvalid⟩
    · rw [if_neg hde] at hdigest hvalid
      have hother : ¬(i = .fin d ∨ i = .ldc d) := by
        rcases hwriter with rfl | rfl <;> simp [Ne.symm hde]
      exact ⟨fun _ _ => ⟨hdigest, hvalid⟩, fun _ => ⟨hdigest, hvalid⟩, fun h => absurd h hother, fun hv => hvalid.trans hv⟩

/-! ### The loader position -/

/-- R40 (d), one command: `LDB` counts two digits at once, `LDC` starts a new load, and no other command but `LDX` moves
`LPOS`. -/
theorem perform_lpos_even {s : Arch} {i : Instr} (hldx : ∀ c, i ≠ .ldx c) (heven : s.lpos.toNat % 2 = 0) :
    (perform i s).lpos.toNat % 2 = 0 := by
  have hloader := (perform_writesOnlyItsElements s i).loader
  cases i with
  | ldx c => exact absurd rfl (hldx c)
  | ldb v =>
    rcases ldbEffect_cases v s with ⟨_, h⟩ | ⟨_, _, _, h⟩ <;> rw [perform, h]
    · exact heven
    · simp only [Arch.complete_lpos, Arch.setLpos_lpos]; bv_omega
  | ldc d => rcases ldcEffect_cases d s with ⟨_, _, h⟩ | ⟨_, h⟩ <;> rw [perform, h] <;> simp
  | _ =>
    obtain ⟨-, hlpos, -⟩ := hloader (by simp) (by simp) (by simp)
    rw [hlpos, heven]

/-- Settles O14, by induction on the list of commands. -/
theorem lposEvenWithoutLdx : Obligations.LposEvenWithoutLdx := by
  intro is
  induction is with
  | nil => intro s t _ heven hrun; cases hrun; exact heven
  | cons i is ih =>
    intro s t hldx heven hrun
    have hi (c : Byte) : i ≠ .ldx c := fun h => hldx c (h ▸ List.mem_cons_self)
    have his (c : Byte) : Instr.ldx c ∉ is := fun h => hldx c (List.mem_cons_of_mem i h)
    rw [runCommands, exec_eq] at hrun
    exact ih _ t his (perform_lpos_even hi heven) hrun

end Sys2Proof.Machine
end

section
/-! PROOFS. The reads, `CLR` and `NOP` are idempotent (spec/20_memory.md R54): a read leaves what it reads and what it tests
as they were, so a second one ends as the first did, and there writes what is already written. -/

namespace Sys2Proof.Machine

section Idempotence

variable (s : Arch)

/-! ### Repeated ends of a command -/

/-- `ERR` is sticky: the bit a fault sets is set already when the same fault comes again (R150). -/
@[simp] theorem raise_raise (c : FaultCode) : (s.raise c).raise c = s.raise c := by
  simp [Arch.raise, BitVec.or_assoc]

@[simp] theorem setDout_complete_twice (v : Byte) :
    ((s.setDout v).complete.setDout v).complete = (s.setDout v).complete := rfl

@[simp] theorem setDist_complete_twice (v : BitVec 16) :
    ((s.setDist v).complete.setDist v).complete = (s.setDist v).complete := rfl

/-! ### The reads that can fault -/

theorem rdbEffect_twice (d : DigestReg) (k : Byte) : rdbEffect d k (rdbEffect d k s) = rdbEffect d k s := by
  rcases rdbEffect_cases d k s with ⟨hk, h⟩ | ⟨hk, hv, h⟩ | ⟨hk, hv, h⟩ <;> rw [h]
  · simp [rdbEffect, wireIndexBad, hk]
  · simp [rdbEffect, wireIndexBad, hk, hv]
  · simp [rdbEffect, wireIndexBad, hk, hv]

theorem rdxEffect_twice (d : DigestReg) (k : Byte) : rdxEffect d k (rdxEffect d k s) = rdxEffect d k s := by
  rcases rdxEffect_cases d k s with ⟨hk, h⟩ | ⟨hk, hv, h⟩ | ⟨hk, hv, h⟩ <;> rw [h]
  · simp [rdxEffect, textIndexBad, hk]
  · simp [rdxEffect, textIndexBad, hk, hv]
  · simp [rdxEffect, textIndexBad, hk, hv]

theorem cmpEffect_twice (P : PerCodeDistance) (l : Bool) : cmpEffect P l (cmpEffect P l s) = cmpEffect P l s := by
  rcases cmpEffect_cases P l s with ⟨hv, h⟩ | ⟨h0, h1, h⟩ <;> rw [h]
  · simp [cmpEffect, hv]
  · simp [cmpEffect, h0, h1]

end Idempotence

/-- The host's side plays no part: a command is idempotent when its effect on the hardware is. -/
theorem exec_twice {i : Instr} {s t : State} (hperform : perform i (perform i s.toArch) = perform i s.toArch)
    (hexec : exec i s = .next t) : exec i t = .next t := by
  cases exec_next.mp hexec
  exact exec_next.mpr (by rw [hperform])

/-- Settles O55: `NOP`, `CLR` and `HRD` write the same values again whatever the state, the other reads end in the same
case again. -/
theorem readsAreIdempotent : Obligations.ReadsAreIdempotent := by
  intro i s t hi
  apply exec_twice
  rcases hi with rfl | rfl | ⟨k, rfl⟩ | ⟨d, k, rfl⟩ | ⟨d, k, rfl⟩ | ⟨l, rfl⟩
  · rfl
  · rfl
  · rfl
  · exact rdbEffect_twice s.toArch d k
  · exact rdxEffect_twice s.toArch d k
  · exact cmpEffect_twice s.toArch configuredPd l

end Sys2Proof.Machine
end

section
/-! PROOFS. Words and their fields (spec/30_encoding.md R60): a word is its four fields side by side, so a mask, a row of
the opcode map (R61), a must-be-zero rule (R62) and the word of a command (R68) are each a condition on the fields. -/

namespace Sys2Proof

open Machine

/-! ### The four fields -/

theorem opField_toNat (w : Word) : (opField w).toNat = w.toNat / 4096 := by
  simp [opField, Nat.shiftRight_eq_div_pow]; omega

theorem rsvField_toNat (w : Word) : (rsvField w).toNat = w.toNat / 512 % 8 := by
  simp [rsvField, Nat.shiftRight_eq_div_pow]

theorem selectorField_toNat (w : Word) : (selectorField w).toNat = w.toNat / 256 % 2 := Nat.toNat_testBit w.toNat 8

theorem immField_toNat (w : Word) : (immField w).toNat = w.toNat % 256 := by simp [immField]

/-- Four fields side by side, from bit 15 down (R60). -/
def layout (op : BitVec 4) (rsv : BitVec 3) (s : Bool) (imm : Byte) : Word := op ++ rsv ++ BitVec.ofBool s ++ imm

theorem layout_toNat (op : BitVec 4) (rsv : BitVec 3) (s : Bool) (imm : Byte) :
    (layout op rsv s imm).toNat = 4096 * op.toNat + 512 * rsv.toNat + 256 * s.toNat + imm.toNat := by
  simp only [layout, toNat_append_eq_add, BitVec.toNat_ofBool]
  omega

theorem layout_fields (w : Word) : layout (opField w) (rsvField w) (selectorField w) (immField w) = w := by
  apply BitVec.eq_of_toNat_eq
  rw [layout_toNat, opField_toNat, rsvField_toNat, selectorField_toNat, immField_toNat]
  omega

theorem layout_inj {op op' : BitVec 4} {rsv rsv' : BitVec 3} {s s' : Bool} {imm imm' : Byte} :
    layout op rsv s imm = layout op' rsv' s' imm' ↔ op = op' ∧ rsv = rsv' ∧ s = s' ∧ imm = imm' := by
  have hs : s = s' ↔ s.toNat = s'.toNat := by cases s <;> cases s' <;> decide
  have hlt : s.toNat < 2 := s.toNat_lt
  have hlt' : s'.toNat < 2 := s'.toNat_lt
  simp only [← BitVec.toNat_inj, layout_toNat, hs]
  omega

theorem layout_and (op op' : BitVec 4) (rsv rsv' : BitVec 3) (s s' : Bool) (imm imm' : Byte) :
    layout op rsv s imm &&& layout op' rsv' s' imm' = layout (op &&& op') (rsv &&& rsv') (s && s') (imm &&& imm') := by
  unfold layout
  rw [← BitVec.ofBool_and_ofBool, ← BitVec.and_append, ← BitVec.and_append, ← BitVec.and_append]

/-- A word under a mask, field by field: the arguments are the fields of the mask, then those of the masked word. -/
theorem and_layout_eq_layout (w : Word) (op : BitVec 4) (rsv : BitVec 3) (s : Bool) (imm : Byte)
    (op' : BitVec 4) (rsv' : BitVec 3) (s' : Bool) (imm' : Byte) :
    w &&& layout op rsv s imm = layout op' rsv' s' imm' ↔
      opField w &&& op = op' ∧ rsvField w &&& rsv = rsv' ∧ (selectorField w && s) = s' ∧ immField w &&& imm = imm' := by
  rw [← layout_fields w, layout_and, layout_inj, layout_fields]

/-! ### The encoder -/

theorem assemble_eq_layout (op : BitVec 4) (s : Bool) (imm : Byte) : assemble op s imm = layout op 0 s imm := rfl

theorem assemble_eq_iff {op : BitVec 4} {s : Bool} {imm : Byte} {w : Word} :
    assemble op s imm = w ↔ opField w = op ∧ rsvField w = 0 ∧ selectorField w = s ∧ immField w = imm := by
  rw [← layout_fields w, assemble_eq_layout, eq_comm, layout_inj, layout_fields]

theorem assemble_toNat (op : BitVec 4) (s : Bool) (imm : Byte) :
    (assemble op s imm).toNat = 0x1000 * op.toNat + 0x100 * s.toNat + imm.toNat := by
  rw [assemble_eq_layout, layout_toNat]; simp

/-- Settles O2: `assemble_toNat` for the opcode of each command. -/
theorem commandWordValues : Obligations.CommandWordValues := by
  simp [Obligations.CommandWordValues, encode, assemble_toNat]

end Sys2Proof
end

section
/-! PROOFS. Decoder and encoder are inverse to each other (spec/30_encoding.md R73): a word decodes to a command exactly if
it is the command's word. What is said of decoded words below is said of `encode` by this one fact. -/

namespace Sys2Proof

@[simp] theorem digestRegOf_selectorOf (d : DigestReg) : digestRegOf (selectorOf d) = d := by cases d <;> rfl
@[simp] theorem selectorOf_digestRegOf (s : Bool) : selectorOf (digestRegOf s) = s := by cases s <;> rfl

theorem acceptIf_eq_ok {ok : Bool} {i j : Instr} : acceptIf ok i = .ok j ↔ ok = true ∧ i = j := by
  cases ok <;> simp [acceptIf]

theorem decode_encode (i : Instr) : decode (encode i) = .ok i := by
  cases i <;> simp [encode, decode, Laws.WordFields.assemble_fields, acceptIf]

/-- Each branch of the decoder that accepts a word has tested its four fields for those of the command's word. -/
theorem encode_of_decode {w : Word} {i : Instr} (h : decode w = .ok i) : encode i = w := by
  unfold decode at h
  dsimp only at h
  split at h
  case isTrue => cases h
  case isFalse hrsv =>
    split at h
    case h_12 => cases h
    case h_9 hop | h_10 hop =>
      cases h
      exact assemble_eq_iff.mpr ⟨BitVec.eq_of_toNat_eq hop, of_not_not hrsv, (selectorOf_digestRegOf _).symm, rfl⟩
    all_goals
      rename_i hop
      obtain ⟨hok, rfl⟩ := acceptIf_eq_ok.mp h
      exact assemble_eq_iff.mpr ⟨BitVec.eq_of_toNat_eq hop, of_not_not hrsv, by simp_all, by simp_all⟩

theorem decode_eq_ok_iff {w : Word} {i : Instr} : decode w = .ok i ↔ encode i = w :=
  ⟨encode_of_decode, fun h => h ▸ decode_encode i⟩

/-- Settles O3: the two directions of `decode_eq_ok_iff`. -/
theorem decodeEncodeRoundTrip : Obligations.DecodeEncodeRoundTrip :=
  ⟨fun i _ => decode_encode i, fun _ _ => encode_of_decode⟩

/-- Settles O1: the eleven words are values of `encode`, and the decoder refuses the four others as it is run on them. -/
theorem spelledWordsDecode : Obligations.SpelledWordsDecode :=
  ⟨decode_encode .nop, decode_encode .clr, decode_encode (.feed 0x54), decode_encode (.fin .d1), decode_encode (.hrd 0x4B),
    decode_encode (.ldb 0xFC), decode_encode (.ldx 0x66), decode_encode (.ldc .d1), decode_encode (.rdb .d1 34),
    decode_encode (.rdx .d0 69), decode_encode (.cmp true), rfl, rfl, rfl, rfl⟩

end Sys2Proof
end

section
/-! PROOFS. The opcode map (spec/30_encoding.md R61), the operands as they stand (R64) and the must-be-zero rules (R62):
both sides of each are conditions on the fields of the word. -/

namespace Sys2Proof

/-- A property of some command, constructor by constructor. -/
theorem exists_instr {p : Instr → Prop} : (∃ i, p i) ↔
    p .nop ∨ p .clr ∨ (∃ b, p (.feed b)) ∨ (∃ d, p (.fin d)) ∨ (∃ i, p (.hrd i)) ∨ (∃ v, p (.ldb v)) ∨ (∃ c, p (.ldx c)) ∨
      (∃ d, p (.ldc d)) ∨ (∃ d i, p (.rdb d i)) ∨ (∃ d i, p (.rdx d i)) ∨ ∃ l, p (.cmp l) := by
  constructor
  · rintro ⟨i, hi⟩
    cases i <;> grind
  · rintro (h | h | ⟨_, h⟩ | ⟨_, h⟩ | ⟨_, h⟩ | ⟨_, h⟩ | ⟨_, h⟩ | ⟨_, h⟩ | ⟨_, _, h⟩ | ⟨_, _, h⟩ | ⟨_, h⟩) <;> exact ⟨_, h⟩

@[simp] theorem exists_eq_selectorOf (s : Bool) : ∃ d, s = selectorOf d := ⟨digestRegOf s, by simp⟩

/-! ### The rows of the opcode map -/

/-- The row of the opcode `op`: `rsv` is 0 in every row, `s` and `imm` are 0 where they are fixed and free elsewhere. -/
def fieldRow (name : String) (op : BitVec 4) (sFixed immFixed : Bool) : OpcodeRow where
  name := name
  matchBits := layout op 0 false 0
  maskBits := layout (BitVec.allOnes 4) (BitVec.allOnes 3) sFixed (if immFixed then BitVec.allOnes 8 else 0)

theorem opcodeRows_eq_fieldRows : opcodeRows =
    [fieldRow "NOP" 0 true true, fieldRow "CLR" 1 true true, fieldRow "FEED" 2 true false, fieldRow "FIN" 3 false true,
     fieldRow "HRD" 4 true false, fieldRow "LDB" 5 true false, fieldRow "LDX" 6 true false, fieldRow "LDC" 7 false true,
     fieldRow "RDB" 8 false false, fieldRow "RDX" 9 false false, fieldRow "CMP" 10 false true] := by decide

theorem fieldRow_hit {name : String} {op : BitVec 4} {sFixed immFixed : Bool} {w : Word} :
    (fieldRow name op sFixed immFixed).hit w = true ↔
      opField w = op ∧ rsvField w = 0 ∧ (sFixed = true → selectorField w = false) ∧ (immFixed = true → immField w = 0) := by
  simp only [OpcodeRow.hit, fieldRow, beq_iff_eq, and_layout_eq_layout, BitVec.and_allOnes]
  cases immFixed
  · simp
  · rw [if_pos rfl, BitVec.and_allOnes]; simp

/-- R61: the words of a row's command, over all operands, are those with the fields the row fixes. -/
theorem hit_iff_exists_decode (w : Word) :
    ∀ r ∈ opcodeRows, r.hit w = true ↔ ∃ i, decode w = .ok i ∧ mnemonic i = r.name := by
  rw [opcodeRows_eq_fieldRows]
  simp only [List.forall_mem_cons, fieldRow_hit, decode_eq_ok_iff, exists_instr]
  simp [fieldRow, mnemonic, encode, assemble_eq_iff]

/-! ### The must-be-zero rules -/

theorem shiftRight_toNat_eq_opField (w : Word) : (w >>> 12).toNat = (opField w).toNat := by
  rw [opField_toNat, BitVec.toNat_ushiftRight, Nat.shiftRight_eq_div_pow]

theorem and_reservedMask_eq_zero {w : Word} : w &&& 0x0E00#16 = 0#16 ↔ rsvField w = 0 :=
  (and_layout_eq_layout w 0 (BitVec.allOnes 3) false 0 0 0 false 0).trans (by rw [BitVec.and_allOnes]; simp)

theorem and_selectorMask_eq_zero {w : Word} : w &&& 0x0100#16 = 0#16 ↔ selectorField w = false :=
  (and_layout_eq_layout w 0 0 true 0 0 0 false 0).trans (by simp)

theorem and_immMask_eq_zero {w : Word} : w &&& 0x00FF#16 = 0#16 ↔ immField w = 0 :=
  (and_layout_eq_layout w 0 0 false (BitVec.allOnes 8) 0 0 false 0).trans (by rw [BitVec.and_allOnes]; simp)

theorem wordWellFormed_iff {w : Word} : wordWellFormed w = true ↔
    (opField w).toNat ≤ 10 ∧ rsvField w = 0 ∧
    (WordCheck.selectorMustBeZero (opField w).toNat = true → selectorField w = false) ∧
    (WordCheck.immediateMustBeZero (opField w).toNat = true → immField w = 0) := by
  simp only [wordWellFormed, WordCheck.opcodeAssigned, WordCheck.reservedClear, WordCheck.selectorAllowed,
    WordCheck.immediateAllowed, shiftRight_toNat_eq_opField, Bool.and_eq_true, Bool.or_eq_true, Bool.not_eq_true',
    beq_iff_eq, decide_eq_true_eq, and_reservedMask_eq_zero, and_selectorMask_eq_zero, and_immMask_eq_zero, and_assoc,
    imp_iff_not_or, Bool.not_eq_true]

/-- R62: opcode by opcode, the rules leave the words of that opcode's command, and none of a reserved opcode. -/
theorem wordWellFormed_iff_exists_decode (w : Word) : wordWellFormed w = true ↔ ∃ i, decode w = .ok i := by
  rw [wordWellFormed_iff]
  simp only [exists_instr, decode_eq_ok_iff, encode, assemble_eq_iff]
  obtain ⟨n, hn, hop⟩ : ∃ n < 16, opField w = BitVec.ofNat 4 n := ⟨_, (opField w).isLt, by simp⟩
  rw [hop]
  interval_cases n <;> simp [WordCheck.selectorMustBeZero, WordCheck.immediateMustBeZero]

/-- Settles O4: a decoded word is the word of its command, so its fields are the operands. -/
theorem decodeFollowsOpcodeMap : Obligations.DecodeFollowsOpcodeMap := by
  refine ⟨hit_iff_exists_decode, fun w i hdec => ?_, wordWellFormed_iff_exists_decode⟩
  have hword := encode_of_decode hdec
  cases i with
  | nop => trivial
  | clr => trivial
  | _ =>
    obtain ⟨-, -, hs, himm⟩ := assemble_eq_iff.mp hword
    simp_all [selectorField, immField]

end Sys2Proof
end

section
/-! PROOFS. Exactly 2056 words are commands (spec/30_encoding.md R63): `encode` matches the commands with the words that
decode, and the commands are counted constructor by constructor. -/

namespace Sys2Proof

def selectorEquiv : Bool ≃ DigestReg := ⟨digestRegOf, selectorOf, selectorOf_digestRegOf, digestRegOf_selectorOf⟩

/-- A command is one of eleven tuples of operands. -/
def operandsEquiv : Unit ⊕ Unit ⊕ Byte ⊕ DigestReg ⊕ Byte ⊕ Byte ⊕ Byte ⊕ DigestReg ⊕
    (_ : DigestReg) × Byte ⊕ (_ : DigestReg) × Byte ⊕ Bool ≃ Instr := proxy_equiv% Instr

theorem natCard_instr : Nat.card Instr = 2056 := by
  have hfinite : Finite DigestReg := .of_equiv _ selectorEquiv
  have hbool : Nat.card Bool = 2 := by rw [Nat.card_eq_fintype_card, Fintype.card_bool]
  have hreg : Nat.card DigestReg = 2 := by rw [← Nat.card_congr selectorEquiv, hbool]
  have hbyte : Nat.card Byte = 256 := by rw [Nat.card_eq_fintype_card, ← FinEnum.card_eq_fintypeCard]; simp
  rw [← Nat.card_congr operandsEquiv]
  simp only [Nat.card_sum, Nat.card_congr (Equiv.sigmaEquivProd _ _), Nat.card_prod, hreg, hbyte, hbool, Nat.card_unique]

theorem isOk_decode_iff {w : Word} : (decode w).isOk = true ↔ ∃ i, encode i = w := by
  simp only [← decode_eq_ok_iff]
  cases decode w <;> simp [Except.isOk, Except.toBool]

theorem encode_injective : Function.Injective encode := fun i j h =>
  Except.ok.inj ((decode_encode i).symm.trans (h ▸ decode_encode j))

theorem isOk_decode_encode (i : Instr) : (decode (BitVec.ofNat 16 (encode i).toNat)).isOk = true := by
  rw [BitVec.ofNat_toNat, BitVec.setWidth_eq, decode_encode]; rfl

/-- The word of a command as a number, one of the numbers below 65536 that decode. -/
def commandNumber (i : Instr) : {n // n < 65536 ∧ (decode (BitVec.ofNat 16 n)).isOk = true} :=
  ⟨(encode i).toNat, (encode i).isLt, isOk_decode_encode i⟩

theorem commandNumber_bijective : Function.Bijective commandNumber := by
  constructor
  · intro i j h
    exact encode_injective (BitVec.eq_of_toNat_eq (Subtype.ext_iff.mp h))
  · rintro ⟨n, hn, hok⟩
    obtain ⟨i, hi⟩ := isOk_decode_iff.mp hok
    exact ⟨i, Subtype.ext (by simp [commandNumber, hi, Nat.mod_eq_of_lt hn])⟩

/-- Settles O5: the numbers that decode are as many as the commands. -/
theorem legalWordCount : Obligations.LegalWordCount := by
  have hcount : Nat.count (fun n => (decode (BitVec.ofNat 16 n)).isOk = true) 65536 = 2056 := by
    rw [Nat.count_eq_card_filter_range, ← natCard_instr, Nat.card_eq_of_bijective _ commandNumber_bijective]
    exact (Nat.subtype_card _ (by simp)).symm
  simpa [Nat.count, Obligations.LegalWordCount] using hcount

end Sys2Proof
end

section
/-! PROOFS. Programs (spec/30_encoding.md R72) and words that are no command (R65). -/

namespace Sys2Proof.Machine

theorem run_succ_of_step {M : Host.Core} {k : Nat} {s t : M.State} (h : M.step s = .next t) :
    M.run (k + 1) s = M.run k t := by
  rw [Host.Core.run, h]

theorem runWords_cons (w : Word) (ws : List Word) (a : Arch) : runWords (w :: ws) a = runWords ws (commandStep w a) := rfl

/-- One step for each word: the host issues it, and the others wait. -/
theorem run_issued_words (ws : List Word) (a : Arch) (rest : List HostAction) :
    core.run ws.length ({ a with pending := ws.map .issue ++ rest } : State) =
      .next ({ runWords ws a with pending := rest } : State) := by
  induction ws generalizing a with
  | nil => rfl
  | cons w ws ih =>
    have hstep : core.step ({ a with pending := (w :: ws).map .issue ++ rest } : State) =
        .next ({ commandStep w a with pending := ws.map .issue ++ rest } : State) :=
      hardwareStepTakesCommand.1 { a with pending := .issue w :: (ws.map .issue ++ rest) } w _ rfl
    exact (run_succ_of_step hstep).trans (ih (commandStep w a))

theorem runCommands_eq_runWords (is : List Instr) (s : State) :
    runCommands is s = .next { s with toArch := runWords (is.map encode) s.toArch } := by
  induction is generalizing s with
  | nil => rfl
  | cons i is ih =>
    rw [runCommands, exec_eq, List.map_cons, runWords_cons, commandStep_of_ok (decode_encode i)]
    exact ih _

theorem isOk_decode_encode (i : Instr) : (decode (BitVec.ofNat 16 (encode i).toNat)).isOk = true := by
  rw [BitVec.ofNat_toNat, BitVec.setWidth_eq, decode_encode]; rfl

/-- Every command has its word, and every word that decodes is the word of one command. -/
theorem encode_bijective : Function.Bijective fun i : Instr =>
    (⟨(encode i).toNat, (encode i).isLt, isOk_decode_encode i⟩ :
      {n // n < 65536 ∧ (decode (BitVec.ofNat 16 n)).isOk = true}) := by
  constructor
  · intro i j h
    exact encode_injective (BitVec.eq_of_toNat_eq (Subtype.ext_iff.mp h))
  · rintro ⟨n, hn, hok⟩
    obtain ⟨i, hi⟩ := isOk_decode_iff.mp hok
    exact ⟨i, Subtype.ext (by simp [hi, Nat.mod_eq_of_lt hn])⟩

/-- Settles O57, by induction on the words and on the commands. -/
theorem programIsFoldOfCommandStep : Obligations.ProgramIsFoldOfCommandStep :=
  ⟨run_issued_words, runCommands_eq_runWords⟩

/-- A word with a reserved opcode breaks the first of the must-be-zero rules. -/
theorem exists_error_of_reserved_opcode {w : Word} (hw : 0xB000 ≤ w.toNat) : ∃ r, decode w = .error r := by
  cases hdec : decode w with
  | error r => exact ⟨r, rfl⟩
  | ok i =>
    have hop := (wordWellFormed_iff.mp ((wordWellFormed_iff_exists_decode w).mpr ⟨i, hdec⟩)).1
    rw [opField_toNat] at hop
    omega

/-- Settles O7: the hardware's step of such a word raises `ILLEGAL`. -/
theorem illegalWordOnlyRecorded : Obligations.IllegalWordOnlyRecorded := by
  obtain ⟨hstep, -, hillegal⟩ := hardwareStepTakesCommand
  refine ⟨fun s w rest r hpending hdec => ?_, fun _ => exists_error_of_reserved_opcode⟩
  rw [hstep s w rest hpending, hillegal s.toArch w r hdec]

end Sys2Proof.Machine
end

section
/-! PROOFS. The substitution hash (spec/40_subst_hash.md R75, R77). `H` is three rounds `T (x ^^^ y)`, each a bijection of
either operand; an argument of `H` enters one of them and goes on as the left operand of those after it. -/

namespace Sys2Proof.Machine

theorem hashRound_bijective_right (T : Equiv.Perm Byte) (x : Byte) : Function.Bijective fun y => T (x ^^^ y) :=
  T.bijective.comp (Equiv.xor x).bijective

theorem hashRound_bijective_left (T : Equiv.Perm Byte) (y : Byte) : Function.Bijective fun x => T (x ^^^ y) := by
  simpa only [BitVec.xor_comm] using hashRound_bijective_right T y

theorem substHash_bijective_third (T : Equiv.Perm Byte) (s a b : Byte) : Function.Bijective fun c => substHash T s a b c :=
  hashRound_bijective_right T _

theorem substHash_bijective_second (T : Equiv.Perm Byte) (s a c : Byte) : Function.Bijective fun b => substHash T s a b c :=
  (hashRound_bijective_left T c).comp (hashRound_bijective_right T _)

theorem substHash_bijective_first (T : Equiv.Perm Byte) (s b c : Byte) : Function.Bijective fun a => substHash T s a b c :=
  (hashRound_bijective_left T c).comp ((hashRound_bijective_left T b).comp (hashRound_bijective_right T s))

theorem substHash_bijective_salt (T : Equiv.Perm Byte) (a b c : Byte) : Function.Bijective fun s => substHash T s a b c :=
  (hashRound_bijective_left T c).comp ((hashRound_bijective_left T b).comp (hashRound_bijective_left T a))

/-- Settles O21: the argument's own round, then the rounds after it; the old checksum is the third byte. -/
theorem substHashBijectiveInEachArgument : Obligations.SubstHashBijectiveInEachArgument := fun T =>
  ⟨substHash_bijective_third T, substHash_bijective_second T, substHash_bijective_first T, substHash_bijective_salt T,
    substHash_bijective_third T 0⟩

end Sys2Proof.Machine
end

section
/-! PROOFS. The four commands of the accumulator, one at a time (spec/41_accumulator.md R81 to R86, R90, R92). -/

namespace Sys2Proof.Machine

/-- Settles O15. -/
theorem nopOnlyClearsLerr : Obligations.NopOnlyClearsLerr := exec_eq .nop

/-- Settles O20. -/
theorem hrdReadsCounter : Obligations.HrdReadsCounter := fun i => exec_eq (.hrd i)

/-- Settles O16: the cleared arrays are constant vectors. -/
theorem clrZeroesAccumulator : Obligations.ClrZeroesAccumulator := fun s =>
  ⟨_, exec_eq .clr s, fun i => Vector.getElem_replicate i.isLt, fun j => Vector.getElem_replicate j.isLt, rfl⟩

/-! ### The three outcomes of `FEED`, each under its condition -/

section Feed

variable {T : Byte → Byte} {b : Byte} {s : Arch}

theorem feedEffect_of_finalized (hphase : s.phase = .finalized) : feedEffect T b s = s.raise .phase := by
  rcases feedEffect_cases T b s with ⟨_, h⟩ | ⟨h, _⟩ | ⟨h, _⟩
  · exact h
  · cases hphase.symm.trans h
  · cases hphase.symm.trans h

theorem feedEffect_of_full (hphase : s.phase = .accumulating) (hlen : s.len.toNat = 2 ^ 32 - 1) :
    feedEffect T b s = s.raise .overflow := by
  rcases feedEffect_cases T b s with ⟨h, _⟩ | ⟨_, _, h⟩ | ⟨_, hlt, _⟩
  · cases hphase.symm.trans h
  · exact h
  · exact absurd hlen hlt.ne

theorem feedEffect_of_room (hphase : s.phase = .accumulating) (hlen : s.len.toNat < 2 ^ 32 - 1) :
    feedEffect T b s = (absorb T b s).complete := by
  rcases feedEffect_cases T b s with ⟨h, _⟩ | ⟨_, hfull, _⟩ | ⟨_, _, h⟩
  · cases hphase.symm.trans h
  · exact absurd hfull hlen.ne
  · exact h

/-- Below the maximal length the byte counter does not wrap. -/
theorem len_succ_toNat (hlen : s.len.toNat < 2 ^ 32 - 1) : (s.len + 1).toNat = s.len.toNat + 1 :=
  BitVec.toNat_add_of_lt (by simp; omega)

end Feed

/-- Settles O18. -/
theorem feedRefused : Obligations.FeedRefused := fun b s =>
  ⟨fun hphase => by rw [exec_eq, perform, feedEffect_of_finalized hphase]; rfl,
    fun hphase hlen => by rw [exec_eq, perform, feedEffect_of_full hphase hlen]; rfl⟩

theorem getElem_eq_memReadHist (h : Vector Counter 256) (k : Fin 256) : h[k] = memReadHist h (BitVec.ofNat 8 k.val) := by
  simp [memReadHist]

/-- Settles O17: `absorb_unprimed` or `absorb_primed`, with `absorb_frame`; a bucket rises by the count of its index. -/
theorem feedAccumulates : Obligations.FeedAccumulates := by
  intro b s hphase hlen H w
  have hinc := len_succ_toNat hlen
  refine ⟨_, exec_eq (.feed b) s, ?_⟩
  rw [perform, feedEffect_of_room hphase hlen, absorb_frame]
  refine ⟨rfl, rfl, rfl, rfl, rfl, hinc, fun hlt => ?_, fun hge => ?_, rfl⟩
  · obtain ⟨hhist, hcksum⟩ := absorb_unprimed memReadSbox b s.toArch (by omega)
    exact ⟨hcksum, hhist⟩
  · obtain ⟨hhist, hcksum⟩ := absorb_primed memReadSbox b s.toArch (by omega)
    refine ⟨hcksum, fun k => ?_⟩
    rw [getElem_eq_memReadHist, getElem_eq_memReadHist, Arch.complete_hist, hhist, memReadHist_bumpAll]
    rfl

/-! ### Growth of the counters -/

/-- The bucket indices one `FEED` names: none before the fifth byte, then six (R85, R87). -/
def namedBuckets (T : Byte → Byte) (b : Byte) (s : Arch) : List Byte :=
  if (s.len + 1).toNat < 5 then [] else bucketIndices T (shiftWindow s.window b)

theorem namedBuckets_length (T : Byte → Byte) (b : Byte) (s : Arch) :
    (namedBuckets T b s).length = if (s.len + 1).toNat < 5 then 0 else 6 := by
  unfold namedBuckets; split <;> rfl

theorem absorb_hist (T : Byte → Byte) (b : Byte) (s : Arch) : (absorb T b s).hist = bumpAll s.hist (namedBuckets T b s) := by
  unfold namedBuckets
  split
  case isTrue h => exact (absorb_unprimed T b s h).1
  case isFalse h => exact (absorb_primed T b s (Nat.le_of_not_lt h)).1

theorem getElem_bumpAll_toNat (h : Vector Counter 256) (is : List Byte) (k : Fin 256)
    (hlt : h[k].toNat + is.length < 2 ^ 35) :
    (bumpAll h is)[k].toNat = h[k].toNat + is.count (BitVec.ofNat 8 k.val) := by
  have hcount : is.count (BitVec.ofNat 8 k.val) ≤ is.length := List.count_le_length
  rw [getElem_eq_memReadHist] at hlt
  rw [getElem_eq_memReadHist, getElem_eq_memReadHist, memReadHist_bumpAll, BitVec.toNat_add, BitVec.toNat_ofNat,
    Nat.add_mod_mod, Nat.mod_eq_of_lt (by omega)]

/-- R92, one successful `FEED`: under the invariant no counter is near `2^35`, so each rises by its count among the named
buckets, and their sum by the number of these. -/
theorem absorb_growth {T : Byte → Byte} {b : Byte} {s : Arch} (hinv : s.Inv) :
    histSum (absorb T b s).hist = histSum s.hist + (if (s.len + 1).toNat < 5 then 0 else 6) ∧
    ∀ k : Fin 256, s.hist[k].toNat ≤ (absorb T b s).hist[k].toNat ∧ (absorb T b s).hist[k].toNat ≤ s.hist[k].toNat + 6 := by
  have hlength : (namedBuckets T b s).length ≤ 6 := by rw [namedBuckets_length]; split <;> omega
  have hlen := s.len.isLt
  rw [absorb_hist]
  refine ⟨?_, fun k => ?_⟩
  · rw [histSum_bumpAll _ _ (by rw [hinv.sum_eq]; omega), namedBuckets_length]
  · have hle := hinv.counter_le k
    have hcount := (List.count_le_length (a := BitVec.ofNat 8 k.val) (l := namedBuckets T b s)).trans hlength
    rw [getElem_bumpAll_toNat _ _ _ (by omega)]
    omega

/-- Settles O19: only `CLR` and `FEED` write the counters, and a `FEED` that does not fault is `absorb`. -/
theorem histogramGrowth : Obligations.HistogramGrowth := by
  intro i s t hinv hexec
  cases exec_next.mp hexec
  by_cases hfeed : ∃ b, i = .feed b
  · obtain ⟨b, rfl⟩ := hfeed
    rcases feedEffect_cases memReadSbox b s.toArch with ⟨_, h⟩ | ⟨_, _, h⟩ | ⟨_, _, h⟩ <;> rw [perform, h]
    · exact ⟨fun _ _ => le_rfl, fun _ hlerr => absurd hlerr (code_ne_zero .phase)⟩
    · exact ⟨fun _ _ => le_rfl, fun _ hlerr => absurd hlerr (code_ne_zero .overflow)⟩
    · obtain ⟨hsum, hcounter⟩ := absorb_growth (T := memReadSbox) (b := b) hinv
      exact ⟨fun _ k => (hcounter k).1, fun _ _ => ⟨by simpa using hsum, fun k => (hcounter k).2⟩⟩
  · refine ⟨fun hclr k => ?_, fun h => absurd h hfeed⟩
    have hkept := (perform_writesOnlyItsElements s.toArch i).accumulator hclr (not_exists.mp hfeed)
    exact (congrArg (fun h : Vector Counter 256 => h[k].toNat) hkept.1).ge

end Sys2Proof.Machine
end

section
/-! PROOFS. What a command does to the accumulator depends on the accumulator alone, and what it does to the loader on the
loader alone (spec/41_accumulator.md R94, spec/43_digest_codec.md R127); so what stands between the `FEED`s of a program
does not matter to the accumulator (R89). -/

namespace Sys2Proof.Machine

section SameParts

variable {s t u : Arch}

theorem Arch.sameAccumulator.refl (s : Arch) : s.sameAccumulator s := ⟨rfl, rfl, rfl, rfl, rfl⟩

theorem Arch.sameAccumulator.symm (h : s.sameAccumulator t) : t.sameAccumulator s := by
  obtain ⟨hhist, hwindow, hlen, hcksum, hphase⟩ := h
  exact ⟨hhist.symm, hwindow.symm, hlen.symm, hcksum.symm, hphase.symm⟩

theorem Arch.sameAccumulator.trans (h : s.sameAccumulator t) (h' : t.sameAccumulator u) : s.sameAccumulator u := by
  obtain ⟨hhist, hwindow, hlen, hcksum, hphase⟩ := h
  obtain ⟨hhist', hwindow', hlen', hcksum', hphase'⟩ := h'
  exact ⟨hhist.trans hhist', hwindow.trans hwindow', hlen.trans hlen', hcksum.trans hcksum', hphase.trans hphase'⟩

theorem Arch.sameLoader.symm (h : s.sameLoader t) : t.sameLoader s := by
  obtain ⟨hlbuf, hlpos, hlbad⟩ := h
  exact ⟨hlbuf.symm, hlpos.symm, hlbad.symm⟩

theorem Arch.sameLoader.trans (h : s.sameLoader t) (h' : t.sameLoader u) : s.sameLoader u := by
  obtain ⟨hlbuf, hlpos, hlbad⟩ := h
  obtain ⟨hlbuf', hlpos', hlbad'⟩ := h'
  exact ⟨hlbuf.trans hlbuf', hlpos.trans hlpos', hlbad.trans hlbad'⟩

end SameParts

/-! ### The accumulator -/

section Accumulator

variable {s s' : Arch}

/-- Only `CLR`, `FEED` and `FIN` write the accumulator. -/
theorem perform_sameAccumulator_self {i : Instr} (hclr : i ≠ .clr) (hfeed : ∀ b, i ≠ .feed b) (hfin : ∀ d, i ≠ .fin d)
    (s : Arch) : (perform i s).sameAccumulator s := by
  have hframe := perform_writesOnlyItsElements s i
  obtain ⟨hhist, hwindow, hlen, hcksum⟩ := hframe.accumulator hclr hfeed
  exact ⟨hhist, hwindow, hlen, hcksum, hframe.phase hclr hfin⟩

theorem absorb_sameAccumulator (T : Byte → Byte) (b : Byte) (h : s.sameAccumulator s') :
    (absorb T b s).sameAccumulator (absorb T b s') := by
  obtain ⟨hhist, hwindow, hlen, hcksum, hphase⟩ := h
  have hwindow' : (absorb T b s).window = (absorb T b s').window := by simp [hwindow]
  have hlen' : (absorb T b s).len = (absorb T b s').len := by simp [hlen]
  have hphase' : (absorb T b s).phase = (absorb T b s').phase := by simp [hphase]
  rcases Nat.lt_or_ge (s.len + 1).toNat 5 with hlt | hge
  · obtain ⟨h1, h2⟩ := absorb_unprimed T b s hlt
    obtain ⟨h1', h2'⟩ := absorb_unprimed T b s' (hlen ▸ hlt)
    exact ⟨by rw [h1, h1', hhist], hwindow', hlen', by rw [h2, h2', hcksum], hphase'⟩
  · obtain ⟨h1, h2⟩ := absorb_primed T b s hge
    obtain ⟨h1', h2'⟩ := absorb_primed T b s' (hlen ▸ hge)
    exact ⟨by rw [h1, h1', hhist, hwindow], hwindow', hlen', by rw [h2, h2', hwindow, hcksum], hphase'⟩

/-- `FEED` tests `PHASE` and `LEN`, which are parts of the accumulator, and absorbs into it. -/
theorem feedEffect_sameAccumulator (T : Byte → Byte) (b : Byte) (h : s.sameAccumulator s') :
    (feedEffect T b s).sameAccumulator (feedEffect T b s') := by
  obtain ⟨-, -, hlen, -, hphase⟩ := id h
  rcases feedEffect_cases T b s with ⟨hp, heq⟩ | ⟨hp, hl, heq⟩ | ⟨hp, hl, heq⟩ <;> rw [heq] <;>
    rw [hphase] at hp
  · rw [feedEffect_of_finalized hp]; exact h
  · rw [feedEffect_of_full hp (hlen ▸ hl)]; exact h
  · rw [feedEffect_of_room hp (hlen ▸ hl)]; exact absorb_sameAccumulator T b h

/-- `FIN` tests `PHASE` and, of the accumulator, writes it alone. -/
theorem finEffect_sameAccumulator (d : DigestReg) (h : s.sameAccumulator s') :
    (finEffect d s).sameAccumulator (finEffect d s') := by
  obtain ⟨hhist, hwindow, hlen, hcksum, hphase⟩ := id h
  rcases finEffect_cases d s with ⟨hp, heq⟩ | ⟨hp, heq⟩ <;>
    rcases finEffect_cases d s' with ⟨hp', heq'⟩ | ⟨hp', heq'⟩ <;> rw [heq, heq']
  · exact h
  · cases hp.symm.trans (hphase.trans hp')
  · cases hp.symm.trans (hphase.trans hp')
  · exact ⟨by simpa using hhist, by simpa using hwindow, by simpa using hlen, by simpa using hcksum, rfl⟩

theorem perform_sameAccumulator (i : Instr) (h : s.sameAccumulator s') :
    (perform i s).sameAccumulator (perform i s') := by
  cases i with
  | clr => exact ⟨rfl, rfl, rfl, rfl, rfl⟩
  | feed b => exact feedEffect_sameAccumulator memReadSbox b h
  | fin d => exact finEffect_sameAccumulator d h
  | _ =>
    exact (perform_sameAccumulator_self (by simp) (by simp) (by simp) s).trans
      (h.trans (perform_sameAccumulator_self (by simp) (by simp) (by simp) s').symm)

end Accumulator

/-! ### The loader -/

section Loader

variable {s s' : Arch}

theorem halfByte_eq_of_sameLoader (h : s.sameLoader s') : s.halfByte = s'.halfByte := by
  rw [Arch.halfByte, h.2.1, Arch.halfByte]

theorem loadFull_eq_of_sameLoader (h : s.sameLoader s') : s.loadFull = s'.loadFull := by
  rw [Arch.loadFull, h.2.1, Arch.loadFull]

theorem spoilLoad_sameLoader (h : s.sameLoader s') : s.spoilLoad.sameLoader s'.spoilLoad := by
  obtain ⟨hlbuf, hlpos, -⟩ := h
  exact ⟨hlbuf, hlpos, rfl⟩

theorem ldbEffect_sameLoader (v : Byte) (h : s.sameLoader s') : (ldbEffect v s).sameLoader (ldbEffect v s') := by
  obtain ⟨hlbuf, hlpos, hlbad⟩ := id h
  unfold ldbEffect
  rw [hlbad, halfByte_eq_of_sameLoader h, loadFull_eq_of_sameLoader h, hlbuf, hlpos]
  split_ifs
  · exact spoilLoad_sameLoader h
  · exact ⟨rfl, rfl, hlbad⟩

theorem ldxEffect_sameLoader (c : Byte) (h : s.sameLoader s') : (ldxEffect c s).sameLoader (ldxEffect c s') := by
  obtain ⟨hlbuf, hlpos, hlbad⟩ := id h
  have hloaded (n : Nibble) : loadedNibble s n = loadedNibble s' n := by
    rw [loadedNibble, halfByte_eq_of_sameLoader h, hlbuf, hlpos, loadedNibble]
  unfold ldxEffect
  cases hexVal c with
  | none => exact spoilLoad_sameLoader h
  | some n =>
    dsimp only
    rw [hlbad, loadFull_eq_of_sameLoader h, hloaded, hlbuf, hlpos]
    split_ifs
    · exact spoilLoad_sameLoader h
    · exact ⟨rfl, rfl, hlbad⟩

/-- `LDC` closes the load whether it commits it or not. -/
theorem ldcEffect_loader (d : DigestReg) (s : Arch) :
    (ldcEffect d s).lbuf = s.lbuf ∧ (ldcEffect d s).lpos = 0 ∧ (ldcEffect d s).lbad = false := by
  rcases ldcEffect_cases d s with ⟨_, _, h⟩ | ⟨_, h⟩ <;> rw [h] <;> simp

theorem perform_sameLoader (i : Instr) (h : s.sameLoader s') : (perform i s).sameLoader (perform i s') := by
  have hframe := (perform_writesOnlyItsElements s i).loader
  have hframe' := (perform_writesOnlyItsElements s' i).loader
  cases i with
  | ldb v => exact ldbEffect_sameLoader v h
  | ldx c => exact ldxEffect_sameLoader c h
  | ldc d =>
    obtain ⟨hlbuf, hlpos, hlbad⟩ := ldcEffect_loader d s
    obtain ⟨hlbuf', hlpos', hlbad'⟩ := ldcEffect_loader d s'
    obtain ⟨hsame, -, -⟩ := h
    exact ⟨hlbuf.trans (hsame.trans hlbuf'.symm), hlpos.trans hlpos'.symm, hlbad.trans hlbad'.symm⟩
  | _ => exact (hframe (by simp) (by simp) (by simp)).trans (h.trans (hframe' (by simp) (by simp) (by simp)).symm)

end Loader

/-- Settles O24. -/
theorem accumulatorAndLoaderIndependent : Obligations.AccumulatorAndLoaderIndependent := by
  intro i s s' t t' hexec hexec'
  cases exec_next.mp hexec
  cases exec_next.mp hexec'
  exact ⟨perform_sameAccumulator i, perform_sameLoader i⟩

/-! ### Interleaving -/

/-- The command is a `FEED`. -/
def isFeed : Instr → Bool
  | .feed _ => true
  | _ => false

theorem isFeed_eq_true {i : Instr} : isFeed i = true ↔ ∃ b, i = .feed b := by cases i <;> simp [isFeed]

theorem runCommands_cons (i : Instr) (is : List Instr) (s : State) :
    runCommands (i :: is) s = runCommands is { s with toArch := perform i s.toArch } := by
  rw [runCommands, exec_eq]; rfl

/-- From two states with the same accumulator, a list without `CLR` and `FIN` and its `FEED`s alone lead to two states with
the same accumulator: both runs perform the `FEED`s, and the other commands keep the accumulator. -/
theorem runCommands_filter_isFeed {is : List Instr} {s s' : State} (hclr : Instr.clr ∉ is) (hfin : ∀ d, Instr.fin d ∉ is)
    (hsame : s.sameAccumulator s'.toArch) :
    ∃ t u, runCommands is s = .next t ∧ runCommands (is.filter isFeed) s' = .next u ∧ t.sameAccumulator u.toArch := by
  induction is generalizing s s' with
  | nil => exact ⟨s, s', rfl, rfl, hsame⟩
  | cons i is ih =>
    simp only [List.mem_cons, not_or] at hclr hfin
    rw [runCommands_cons]
    cases hfeed : isFeed i with
    | true =>
      rw [List.filter_cons_of_pos hfeed, runCommands_cons]
      exact ih hclr.2 (fun d => (hfin d).2) (perform_sameAccumulator i hsame)
    | false =>
      rw [List.filter_cons_of_neg (by simp [hfeed])]
      have hother (b : Byte) : i ≠ .feed b := fun h => by simp [h, isFeed] at hfeed
      have hkept := perform_sameAccumulator_self (Ne.symm hclr.1) hother (fun d => Ne.symm (hfin d).1) s.toArch
      exact ih hclr.2 (fun d => (hfin d).2) (hkept.trans hsame)

/-- Settles O23: `runCommands_filter_isFeed`, both runs from the same state. -/
theorem interleavingIsIrrelevant : Obligations.InterleavingIsIrrelevant := fun _ s hclr hfin =>
  runCommands_filter_isFeed hclr hfin (Arch.sameAccumulator.refl s.toArch)

end Sys2Proof.Machine
end

section
/-! PROOFS. Feeding a byte list computes `acc` of the list (spec/41_accumulator.md R91). One more byte gives `acc` at most one
more window position, the five newest bytes, on which the machine runs its accumulation step; so "the accumulator holds `acc`
of the bytes so far" is kept by every `FEED`. -/

namespace Sys2Proof.Machine

/-! ### `acc` of a list with one more byte -/

/-- The five newest bytes of an input, newest first, 0 where there are fewer (R26). -/
def newestBytes (bs : List Byte) : Vector Byte 5 :=
  #v[bs.reverse.getD 0 0, bs.reverse.getD 1 0, bs.reverse.getD 2 0, bs.reverse.getD 3 0, bs.reverse.getD 4 0]

theorem newestBytes_getElem (bs : List Byte) (j : Fin 5) :
    (newestBytes bs)[j] = if j.val < bs.length then bs.getD (bs.length - 1 - j.val) 0 else 0 := by
  have hget : (newestBytes bs)[j] = bs.reverse.getD j.val 0 := by fin_cases j <;> rfl
  rw [hget]
  split
  case isTrue h => simp [List.getD_eq_getElem?_getD, List.getElem?_reverse h]
  case isFalse h => exact List.getD_eq_default _ _ (by simpa using h)

/-- The window of the longer input is the shifted window of the shorter one (R83). -/
theorem shiftWindow_newestBytes (bs : List Byte) (b : Byte) : shiftWindow (newestBytes bs) b = newestBytes (bs ++ [b]) := by
  simp [newestBytes, shiftWindow]

/-- The five bytes of an input from position `q` on, newest first: one window position (R91). -/
def windowAt (bs : List Byte) (q : Nat) : Vector Byte 5 :=
  #v[bs.getD (q + 4) 0, bs.getD (q + 3) 0, bs.getD (q + 2) 0, bs.getD (q + 1) 0, bs.getD q 0]

theorem windowPositions_eq (bs : List Byte) : windowPositions bs = (List.range (bs.length - 4)).map (windowAt bs) := rfl

theorem windowAt_concat {bs : List Byte} (b : Byte) {q : Nat} (hq : q + 4 < bs.length) :
    windowAt (bs ++ [b]) q = windowAt bs q := by
  have hget (n : Nat) (hn : n < bs.length) : (bs ++ [b]).getD n 0 = bs.getD n 0 := List.getD_append _ _ _ _ hn
  simp only [windowAt]
  rw [hget _ hq, hget _ (by omega), hget _ (by omega), hget _ (by omega), hget _ (by omega)]

theorem windowAt_last {bs : List Byte} {q : Nat} (hq : bs.length = q + 5) : windowAt bs q = newestBytes bs := by
  have hget (j : Nat) (hj : j < 5) : bs.reverse.getD j 0 = bs.getD (q + 4 - j) 0 := by
    have hlast : bs.length - 1 - j = q + 4 - j := by omega
    rw [List.getD_eq_getElem?_getD, List.getElem?_reverse (by omega), hlast, ← List.getD_eq_getElem?_getD]
  rw [newestBytes, hget 0 (by decide), hget 1 (by decide), hget 2 (by decide), hget 3 (by decide), hget 4 (by decide)]
  rfl

/-- The last byte of an input adds no window position before the fifth byte, and then one (R87). -/
theorem windowPositions_concat (bs : List Byte) (b : Byte) : windowPositions (bs ++ [b]) =
    windowPositions bs ++ if bs.length + 1 < 5 then [] else [newestBytes (bs ++ [b])] := by
  simp only [windowPositions_eq, List.length_append, List.length_singleton]
  split
  case isTrue h =>
    have hnone : bs.length + 1 - 4 = 0 ∧ bs.length - 4 = 0 := by omega
    simp [hnone]
  case isFalse h =>
    obtain ⟨m, hm⟩ : ∃ m, bs.length = m + 4 := ⟨bs.length - 4, by omega⟩
    have hold : (List.range m).map (windowAt (bs ++ [b])) = (List.range m).map (windowAt bs) :=
      List.map_congr_left fun q hq => windowAt_concat b (by have := List.mem_range.mp hq; omega)
    have hnew : windowAt (bs ++ [b]) m = newestBytes (bs ++ [b]) := windowAt_last (by simp [hm])
    have hone : m + 4 + 1 - 4 = m + 1 := rfl
    rw [hm, hone, List.range_succ, List.map_append, hold, List.map_singleton, hnew, Nat.add_sub_cancel]

theorem inputCount_eq (T : Byte → Byte) (bs : List Byte) (i : Byte) :
    inputCount T bs i = ((windowPositions bs).flatMap (bucketIndices T)).count i := rfl

theorem inputCount_concat (T : Byte → Byte) (bs : List Byte) (b i : Byte) : inputCount T (bs ++ [b]) i =
    inputCount T bs i + if bs.length + 1 < 5 then 0 else (bucketIndices T (newestBytes (bs ++ [b]))).count i := by
  rw [inputCount_eq, inputCount_eq, windowPositions_concat, List.flatMap_append, List.count_append]
  split <;> simp

theorem inputChecksum_concat (T : Byte → Byte) (bs : List Byte) (b : Byte) : inputChecksum T (bs ++ [b]) =
    if bs.length + 1 < 5 then inputChecksum T bs else substHash T 0 b (newestBytes bs)[0] (inputChecksum T bs) := by
  unfold inputChecksum
  rw [windowPositions_concat, List.foldl_append]
  split
  · rfl
  · rw [← shiftWindow_newestBytes]; rfl

/-- Each window position names six buckets, so no count reaches `2^35` (R40 b). -/
theorem inputCount_lt (T : Byte → Byte) {bs : List Byte} (hlen : bs.length < 2 ^ 32) (i : Byte) :
    inputCount T bs i < 2 ^ 35 := by
  have hsix : ((windowPositions bs).map fun w => (bucketIndices T w).length) = List.replicate (bs.length - 4) 6 :=
    List.eq_replicate_iff.mpr ⟨by simp [windowPositions_eq], by simp [bucketIndices]⟩
  calc inputCount T bs i ≤ ((windowPositions bs).flatMap (bucketIndices T)).length := List.count_le_length
    _ = (bs.length - 4) * 6 := by rw [List.length_flatMap, hsix, List.sum_replicate, smul_eq_mul]
    _ < 2 ^ 35 := by omega

/-! ### The accumulator holds `acc` of what was fed -/

/-- The accumulator is the one that `acc(bs)` describes, not yet finalized (R91). -/
structure Arch.HoldsAcc (T : Byte → Byte) (bs : List Byte) (s : Arch) : Prop where
  hist_eq : ∀ i, memReadHist s.hist i = BitVec.ofNat 35 (inputCount T bs i)
  cksum_eq : s.cksum = inputChecksum T bs
  len_eq : s.len.toNat = bs.length
  window_eq : s.window = newestBytes bs
  phase_eq : s.phase = .accumulating

theorem Arch.HoldsAcc.of_accumulatorZero (T : Byte → Byte) {s : Arch} (h : s.accumulatorZero) : s.HoldsAcc T [] := by
  obtain ⟨hhist, hwindow, hlen, hcksum, hphase⟩ := h
  exact ⟨fun i => by rw [hhist]; exact Vector.getElem_replicate i.isLt, hcksum, by simp [hlen], hwindow, hphase⟩

theorem Arch.HoldsAcc.absorb {T : Byte → Byte} {bs : List Byte} {s : Arch} (h : s.HoldsAcc T bs)
    (hlen : bs.length + 1 < 2 ^ 32) (b : Byte) : (Machine.absorb T b s).complete.HoldsAcc T (bs ++ [b]) := by
  have hinc : (s.len + 1).toNat = bs.length + 1 := by
    rw [len_succ_toNat (by rw [h.len_eq]; omega), h.len_eq]
  have hwindow : shiftWindow s.window b = newestBytes (bs ++ [b]) := by rw [h.window_eq, shiftWindow_newestBytes]
  refine ⟨fun i => ?_, ?_, by simpa using hinc, by simpa using hwindow, by simpa using h.phase_eq⟩
  · rw [Arch.complete_hist, absorb_hist, memReadHist_bumpAll, h.hist_eq, inputCount_concat, BitVec.ofNat_add, namedBuckets,
      hinc, hwindow]
    split <;> rfl
  · rw [Arch.complete_cksum, inputChecksum_concat]
    split
    case isTrue hlt => rw [(absorb_unprimed T b s (by omega)).2, h.cksum_eq]
    case isFalse hge => rw [(absorb_primed T b s (by omega)).2, h.window_eq, h.cksum_eq]

/-- Feeding `bs` on top of `as` leaves `acc` of the two together, and writes nothing but the accumulator and `LERR`. -/
theorem runCommands_feeds {as bs : List Byte} {s : State} (h : s.HoldsAcc memReadSbox as)
    (hlen : as.length + bs.length < 2 ^ 32) :
    ∃ t, runCommands (feeds bs) s = .next t ∧ t.HoldsAcc memReadSbox (as ++ bs) ∧
      t = { s with hist := t.hist, window := t.window, len := t.len, cksum := t.cksum, lerr := t.lerr } := by
  induction bs generalizing as s with
  | nil => exact ⟨s, rfl, by simpa using h, rfl⟩
  | cons b bs ih =>
    rw [List.length_cons] at hlen
    have hfeed : perform (.feed b) s.toArch = (absorb memReadSbox b s.toArch).complete :=
      feedEffect_of_room h.phase_eq (by rw [h.len_eq]; omega)
    have hone : (perform (.feed b) s.toArch).HoldsAcc memReadSbox (as ++ [b]) := by
      rw [hfeed]; exact h.absorb (by omega) b
    obtain ⟨t, hrun, hacc, hframe⟩ :=
      ih (s := { s with toArch := perform (.feed b) s.toArch }) hone (by simp; omega)
    refine ⟨t, (runCommands_cons (.feed b) (feeds bs) s).trans hrun, by simpa using hacc, ?_⟩
    exact hframe.trans (by rw [hfeed, absorb_frame]; rfl)

/-- Settles O22: `runCommands_feeds` from the empty input; no counter of fewer than `2^32` bytes wraps. -/
theorem feedingComputesAcc : Obligations.FeedingComputesAcc := by
  intro bs s hzero hlen
  obtain ⟨t, hrun, hacc, hframe⟩ :=
    runCommands_feeds (bs := bs) (Arch.HoldsAcc.of_accumulatorZero memReadSbox hzero) (by simpa using hlen)
  rw [List.nil_append] at hacc
  refine ⟨t, hrun, fun i => ?_, hacc.cksum_eq, hacc.len_eq, fun j => ?_, hframe⟩
  · rw [getElem_eq_memReadHist, hacc.hist_eq, BitVec.toNat_ofNat, Nat.mod_eq_of_lt (inputCount_lt _ hlen _)]
    rfl
  · rw [hacc.window_eq, newestBytes_getElem]

end Sys2Proof.Machine
end

section
/-! PROOFS. The reference selection procedure of spec/42_finalize.md R98 finds the order statistics of R96. A list is split at a
position if nothing before it exceeds anything from it on; the value at rank `k` of a list that is split on both sides of `k` is
the one the sort puts there. Every exchange of the procedure stays inside the current bounds, so it keeps every split outside
them, and each partition round ends with one more split. -/

namespace Sys2Proof.Machine

/-! ### Splits of a list -/

/-- No element before position `m` exceeds one from `m` on. -/
def SplitAt (m : Nat) (a : List Nat) : Prop := ∀ t u, t < m → m ≤ u → u < a.length → a.getD t 0 ≤ a.getD u 0

theorem splitAt_zero (a : List Nat) : SplitAt 0 a := fun _ _ h => absurd h (Nat.not_lt_zero _)

theorem splitAt_length {m : Nat} {a : List Nat} (h : a.length ≤ m) : SplitAt m a := fun _ _ _ hm hu => by omega

theorem SplitAt.le_of_mem {m : Nat} {a : List Nat} (h : SplitAt m a) {x y : Nat} (hx : x ∈ a.take m) (hy : y ∈ a.drop m) :
    x ≤ y := by
  obtain ⟨t, ht, rfl⟩ := List.mem_take_iff_getElem.mp hx
  obtain ⟨u, hu, rfl⟩ := List.mem_drop_iff_getElem.mp hy
  have hle := h t (m + u) (by omega) (by omega) (by omega)
  rwa [List.getD_eq_getElem _ _ (by omega), List.getD_eq_getElem _ _ (by omega)] at hle

/-- Sorting the two parts of a list beside an element that the list is split around sorts the list, and leaves the element
where it is. -/
theorem getD_eq_of_splitAt {a S : List Nat} {k : Nat} (hperm : a.Perm S) (hsorted : S.Pairwise (· ≤ ·)) (hk : k < a.length)
    (hsplit : SplitAt k a) (hsplit' : SplitAt (k + 1) a) : a.getD k 0 = S.getD k 0 := by
  generalize hleft : (a.take k).insertionSort (· ≤ ·) = L
  generalize hright : (a.drop (k + 1)).insertionSort (· ≤ ·) = R
  have hL : L.Perm (a.take k) := hleft ▸ List.perm_insertionSort _ _
  have hR : R.Perm (a.drop (k + 1)) := hright ▸ List.perm_insertionSort _ _
  have hdrop : a.drop k = a[k] :: a.drop (k + 1) := List.drop_eq_getElem_cons hk
  have hwhole : (L ++ a[k] :: R).Perm a := by
    calc (L ++ a[k] :: R).Perm (a.take k ++ a[k] :: a.drop (k + 1)) := hL.append (hR.cons _)
      _ = a := by rw [← hdrop, List.take_append_drop]
  have hlow (x : Nat) (hx : x ∈ L) (y : Nat) (hy : y ∈ a[k] :: R) : x ≤ y := by
    refine hsplit.le_of_mem (hL.mem_iff.mp hx) (hdrop ▸ ?_)
    exact (hR.cons _).mem_iff.mp hy
  have hhigh (y : Nat) (hy : y ∈ R) : a[k] ≤ y :=
    hsplit'.le_of_mem (List.mem_take_iff_getElem.mpr ⟨k, by omega, rfl⟩) (hR.mem_iff.mp hy)
  have hpair : (L ++ a[k] :: R).Pairwise (· ≤ ·) :=
    List.pairwise_append.mpr ⟨hleft ▸ List.pairwise_insertionSort _ _,
      List.pairwise_cons.mpr ⟨hhigh, hright ▸ List.pairwise_insertionSort _ _⟩, hlow⟩
  have hS : L ++ a[k] :: R = S :=
    (hwhole.trans hperm).eq_of_pairwise (fun _ _ _ _ => Nat.le_antisymm) hpair hsorted
  have hlen : L.length = k := by rw [hL.length_eq, List.length_take]; omega
  rw [List.getD_eq_getElem _ _ hk, ← hS, List.getD_append_right _ _ _ _ hlen.le]
  simp [hlen]

/-! ### Rearranging a list inside bounds -/

/-- `b` holds the elements of `a`, and every split of `a` at or outside the bounds `lo`, `hi` is one of `b`. -/
structure Rearranges (lo hi : Nat) (a b : List Nat) : Prop where
  perm : b.Perm a
  split : ∀ m, m ≤ lo ∨ hi ≤ m → SplitAt m a → SplitAt m b

namespace Rearranges

variable {lo hi lo' hi' : Nat} {a b c : List Nat}

theorem refl (lo hi : Nat) (a : List Nat) : Rearranges lo hi a a := ⟨.refl a, fun _ _ h => h⟩

theorem trans (h : Rearranges lo hi a b) (h' : Rearranges lo hi b c) : Rearranges lo hi a c :=
  ⟨h'.perm.trans h.perm, fun m hm hs => h'.split m hm (h.split m hm hs)⟩

theorem mono (h : Rearranges lo hi a b) (hlo : lo' ≤ lo) (hhi : hi ≤ hi') : Rearranges lo' hi' a b :=
  ⟨h.perm, fun m hm => h.split m (by omega)⟩

theorem length_eq (h : Rearranges lo hi a b) : b.length = a.length := h.perm.length_eq

end Rearranges

section Exchange

variable {a : List Nat} {i j : Nat}

theorem exchange_getD (hi : i < a.length) (hj : j < a.length) (t : Nat) :
    (exchange a i j).getD t 0 = a.getD (Equiv.swap i j t) 0 := by
  rw [exchange, Equiv.swap_apply_def, List.getD_eq_getElem?_getD, List.getElem?_set, List.getElem?_set, List.length_set]
  by_cases hti : t = i <;> by_cases htj : t = j <;> simp_all [eq_comm, List.getD_eq_getElem?_getD]

theorem exchange_perm (hi : i < a.length) (hj : j < a.length) : (exchange a i j).Perm a := by
  rw [exchange, List.getD_eq_getElem _ _ hi, List.getD_eq_getElem _ _ hj]
  exact List.set_set_perm hi hj

/-- An exchange of two elements on the same side of a split keeps the split. -/
theorem exchange_rearranges {lo hi : Nat} (hloi : lo ≤ i) (hij : i ≤ j) (hj : j < hi) (hhi : hi ≤ a.length) :
    Rearranges lo hi a (exchange a i j) := by
  have hperm := exchange_perm (a := a) (show i < a.length by omega) (show j < a.length by omega)
  refine ⟨hperm, fun m hm hs t u ht hu hlen => ?_⟩
  rw [hperm.length_eq] at hlen
  rw [exchange_getD (by omega) (by omega), exchange_getD (by omega) (by omega)]
  refine hs _ _ ?_ ?_ ?_ <;> rw [Equiv.swap_apply_def] <;> split_ifs <;> omega

end Exchange

/-! ### The two scans and the partition -/

/-- `scanUp` passes elements below the pivot only, and stops at one that is not, unless it has used up its fuel. -/
theorem scanUp_spec (a : List Nat) (p fuel i : Nat) :
    i ≤ scanUp a p fuel i ∧ (∀ t, i ≤ t → t < scanUp a p fuel i → a.getD t 0 < p) ∧
    (scanUp a p fuel i < i + fuel → p ≤ a.getD (scanUp a p fuel i) 0) := by
  induction fuel generalizing i with
  | zero => exact ⟨le_rfl, fun t h h' => absurd h' (by simpa [scanUp] using h), fun h => absurd h (by simp [scanUp])⟩
  | succ fuel ih =>
    rw [scanUp]
    split
    case isTrue hlt =>
      obtain ⟨hge, hpass, hstop⟩ := ih (i + 1)
      refine ⟨by omega, fun t hi ht => ?_, fun h => hstop (by omega)⟩
      rcases Nat.eq_or_lt_of_le hi with rfl | hi
      · exact hlt
      · exact hpass t hi ht
    case isFalse hge => exact ⟨le_rfl, fun t h h' => by omega, fun _ => by omega⟩

/-- `scanDown` passes elements above the pivot only, and stops at one that is not, unless it has reached the front of the list
or used up its fuel. -/
theorem scanDown_spec (a : List Nat) (p fuel j : Nat) :
    scanDown a p fuel j ≤ j ∧ (∀ t, scanDown a p fuel j ≤ t → t < j → p < a.getD t 0) ∧
    (0 < scanDown a p fuel j → j < scanDown a p fuel j + fuel → a.getD (scanDown a p fuel j - 1) 0 ≤ p) := by
  induction fuel generalizing j with
  | zero => exact ⟨le_rfl, fun t h h' => absurd h (by simpa [scanDown] using h'), fun _ h => absurd h (by simp [scanDown])⟩
  | succ fuel ih =>
    rw [scanDown]
    split
    case isTrue hlt =>
      obtain ⟨hle, hpass, hstop⟩ := ih (j - 1)
      refine ⟨by omega, fun t ht hj => ?_, fun h0 h => hstop h0 (by omega)⟩
      rcases Nat.lt_or_ge t (j - 1) with hj' | hj'
      · exact hpass t ht hj'
      · rwa [show t = j - 1 by omega]
    case isFalse hge => exact ⟨le_rfl, fun t h h' => by omega, fun _ _ => by omega⟩

/-- Between the bounds, everything before `i` is at most the pivot and everything from `j` on at least the pivot. -/
structure Partitioned (p lo hi : Nat) (a : List Nat) (i j : Nat) : Prop where
  below : ∀ t, lo ≤ t → t < i → a.getD t 0 ≤ p
  above : ∀ t, j ≤ t → t < hi → p ≤ a.getD t 0

namespace Partitioned

variable {p lo hi i j i' j' : Nat} {a : List Nat}

theorem scan (h : Partitioned p lo hi a i j) (hup : ∀ t, i ≤ t → t < i' → a.getD t 0 < p)
    (hdown : ∀ t, j' ≤ t → t < j → p < a.getD t 0) : Partitioned p lo hi a i' j' where
  below t hlo ht := (Nat.lt_or_ge t i).elim (h.below t hlo) fun hi => (hup t hi ht).le
  above t hj ht := (Nat.lt_or_ge t j).elim (fun hj' => (hdown t hj hj').le) fun hj' => h.above t hj' ht

/-- Exchanging the elements the two scans stopped at moves each to its own side. -/
theorem exchange (h : Partitioned p lo hi a i j) (hlen : hi ≤ a.length) (hj : j ≤ hi) (hij : i < j)
    (hstop : p ≤ a.getD i 0) (hstop' : a.getD (j - 1) 0 ≤ p) :
    Partitioned p lo hi (Machine.exchange a i (j - 1)) (i + 1) (j - 1) where
  below t hlo ht := by
    rw [exchange_getD (by omega) (by omega), Equiv.swap_apply_def]
    split_ifs with hti htj
    · exact hstop'
    · omega
    · exact h.below t hlo (by omega)
  above t htj ht := by
    rw [exchange_getD (by omega) (by omega), Equiv.swap_apply_def]
    split_ifs with hti htj
    · obtain rfl : j - 1 = i := by omega
      omega
    · exact hstop
    · exact h.above t (by omega) ht

theorem splitAt (h : Partitioned p lo hi a i j) {m : Nat} (hlo : SplitAt lo a) (hhi : SplitAt hi a) (hlom : lo ≤ m)
    (hmhi : m ≤ hi) (hjm : j ≤ m) (hmi : m ≤ i) : SplitAt m a := by
  intro t u ht hu hlen
  rcases Nat.lt_or_ge t lo with htlo | htlo
  · exact hlo t u htlo (by omega) hlen
  rcases Nat.lt_or_ge u hi with huhi | huhi
  · exact (h.below t htlo (by omega)).trans (h.above u (by omega) huhi)
  · exact hhi t u (by omega) huhi hlen

end Partitioned

/-- What the partition loop from `a`, `i`, `j` answers: a rearrangement inside the bounds that is partitioned at two positions
which have met; if a pivot lies between `i` and `j`, both positions have moved. -/
structure PartitionResult (p lo hi : Nat) (a : List Nat) (i j : Nat) (r : List Nat × Nat × Nat) : Prop where
  rearranges : Rearranges lo hi a r.1
  partitioned : Partitioned p lo hi r.1 r.2.1 r.2.2
  met : r.2.2 ≤ r.2.1
  up : i ≤ r.2.1
  down : r.2.2 ≤ j
  moved : ∀ m, i ≤ m → m < j → a.getD m 0 = p → i < r.2.1 ∧ r.2.2 < j

/-- The partition loop (R98): its fuel suffices for the distance between the positions, which every exchange shortens. -/
theorem hoare_spec {p lo hi fuel : Nat} {a : List Nat} {i j : Nat} (hhi : hi ≤ a.length) (hlen : a.length ≤ 128)
    (hlo : lo ≤ i) (hj : j ≤ hi) (hfuel : j ≤ i + fuel) (hpart : Partitioned p lo hi a i j) :
    PartitionResult p lo hi a i j (hoare p fuel a i j) := by
  induction fuel generalizing a i j with
  | zero => exact ⟨.refl _ _ _, hpart, hfuel, le_rfl, le_rfl, fun m him hmj _ => by omega⟩
  | succ fuel ih =>
    rw [hoare]
    split
    case isFalse hmet => exact ⟨.refl _ _ _, hpart, by simpa using hmet, le_rfl, le_rfl, fun m him hmj _ => by omega⟩
    case isTrue hij =>
      obtain ⟨hup, hpassUp, hstopUp⟩ := scanUp_spec a p 128 i
      obtain ⟨hdown, hpassDown, hstopDown⟩ := scanDown_spec a p 128 j
      generalize scanUp a p 128 i = i' at *
      generalize scanDown a p 128 j = j' at *
      have hscan : Partitioned p lo hi a i' j' := hpart.scan hpassUp hpassDown
      dsimp only
      split
      case isTrue hlt =>
        have hex : Rearranges lo hi a (exchange a i' (j' - 1)) :=
          exchange_rearranges (by omega) (by omega) (by omega) hhi
        obtain ⟨hr, hp, hmet, hup', hdown', -⟩ := ih (by rw [hex.length_eq]; exact hhi) (by rw [hex.length_eq]; exact hlen)
          (by omega) (by omega) (by omega)
          (hscan.exchange hhi (by omega) hlt (hstopUp (by omega)) (hstopDown (by omega) (by omega)))
        exact ⟨hex.trans hr, hp, hmet, by omega, by omega, fun _ _ _ _ => by omega⟩
      case isFalse hge =>
        obtain ⟨hr, hp, hmet, hup', hdown', -⟩ := ih hhi hlen (by omega) (by omega) (by omega) hscan
        refine ⟨hr, hp, hmet, by omega, by omega, fun m him hmj hpivot => ?_⟩
        have hup_le : i' ≤ m := not_lt.mp fun h => absurd (hpassUp m him h) (by omega)
        have hlt_down : m < j' := not_le.mp fun h => absurd (hpassDown m h hmj) (by omega)
        omega

/-! ### Selection -/

/-- `select(lo, hi, k)` (R98): inside bounds that are splits, it makes the list split on both sides of `k`. -/
theorem selectRank_spec {k fuel : Nat} {a : List Nat} {lo hi : Nat} (hhi : hi ≤ a.length) (hlen : a.length ≤ 128)
    (hlo : lo ≤ k) (hk : k < hi) (hfuel : hi ≤ lo + fuel) :
    Rearranges lo hi a (selectRank k fuel a lo hi) ∧
    (SplitAt lo a → SplitAt hi a →
      SplitAt k (selectRank k fuel a lo hi) ∧ SplitAt (k + 1) (selectRank k fuel a lo hi)) := by
  induction fuel generalizing a lo hi with
  | zero => omega
  | succ fuel ih =>
    rw [selectRank]
    split
    case isFalse hone =>
      obtain rfl : lo = k := by omega
      obtain rfl : hi = lo + 1 := by omega
      exact ⟨.refl _ _ _, fun h h' => ⟨h, h'⟩⟩
    case isTrue hmany =>
      have hpart := hoare_spec (p := a.getD ((lo + (hi - 1)) / 2) 0) (fuel := 128) (i := lo) (j := hi) hhi hlen le_rfl le_rfl
        (by omega) ⟨fun t _ _ => by omega, fun t _ _ => by omega⟩
      generalize hoare (a.getD ((lo + (hi - 1)) / 2) 0) 128 a lo hi = r at *
      obtain ⟨b, i, j⟩ := r
      obtain ⟨hr, hp, hmet, hup, hdown, hmoved⟩ := hpart
      obtain ⟨hi_lo, hj_hi⟩ := hmoved ((lo + (hi - 1)) / 2) (by omega) (by omega) rfl
      dsimp only at *
      have hsplit (m : Nat) (hjm : j ≤ m) (hmi : m ≤ i) (hlom : lo ≤ m) (hmhi : m ≤ hi) (h : SplitAt lo a)
          (h' : SplitAt hi a) : SplitAt m b :=
        hp.splitAt (hr.split lo (.inl le_rfl) h) (hr.split hi (.inr le_rfl) h') hlom hmhi hjm hmi
      have hblen := hr.length_eq
      split_ifs with hkj hik
      · obtain ⟨hr', hs'⟩ := ih (a := b) (lo := lo) (hi := j) (by omega) (by omega) hlo hkj (by omega)
        exact ⟨hr.trans (hr'.mono le_rfl (by omega)),
          fun h h' => hs' (hr.split lo (.inl le_rfl) h) (hsplit j le_rfl hmet (by omega) (by omega) h h')⟩
      · obtain ⟨hr', hs'⟩ := ih (a := b) (lo := i) (hi := hi) (by omega) (by omega) hik hk (by omega)
        exact ⟨hr.trans (hr'.mono (by omega) le_rfl),
          fun h h' => hs' (hsplit i hmet le_rfl (by omega) (by omega) h h') (hr.split hi (.inr le_rfl) h')⟩
      · exact ⟨hr, fun h h' => ⟨hsplit k (by omega) (by omega) hlo (by omega) h h',
          hsplit (k + 1) (by omega) (by omega) (by omega) (by omega) h h'⟩⟩

/-- A search that uses its whole fuel of 128 ends with the value of its rank in place. -/
theorem getD_selectRank {k lo hi : Nat} {a S : List Nat} (hperm : a.Perm S) (hsorted : S.Pairwise (· ≤ ·))
    (hlen : S.length = 128) (hlo : lo ≤ k) (hk : k < hi) (hhi : hi ≤ 128) (hsplit : SplitAt lo a) (hsplit' : SplitAt hi a) :
    (selectRank k 128 a lo hi).getD k 0 = S.getD k 0 := by
  have hlena := hperm.length_eq
  obtain ⟨hr, hs⟩ := selectRank_spec (fuel := 128) (hi := hi) (a := a) (by omega) (by omega) hlo hk (by omega)
  obtain ⟨hs, hs'⟩ := hs hsplit hsplit'
  have hlenr := hr.length_eq
  exact getD_eq_of_splitAt (hr.perm.trans hperm) hsorted (by omega) hs hs'

theorem effective_length (h : Vector Counter 256) : (effective h).length = 128 := by simp [effective]

/-- Settles O32: each of the three searches runs inside bounds that are splits, 0 and 128 at first and then those the median
search left; the second search keeps the split at 64 for the third. -/
theorem referenceSelectionAgrees : Obligations.ReferenceSelectionAgrees := by
  intro h
  generalize hS : (effective h).insertionSort (· ≤ ·) = S
  have hperm : (effective h).Perm S := hS ▸ (List.perm_insertionSort _ _).symm
  have hsorted : S.Pairwise (· ≤ ·) := hS ▸ List.pairwise_insertionSort _ _
  have hlen : S.length = 128 := by rw [← hperm.length_eq, effective_length]
  have hend (a : List Nat) (ha : a.Perm S) : SplitAt 128 a := splitAt_length (by rw [ha.length_eq, hlen])
  have h63 := getD_selectRank (k := 63) hperm hsorted hlen (by decide) (by decide) le_rfl (splitAt_zero _) (hend _ hperm)
  obtain ⟨hra, hsa⟩ := selectRank_spec (k := 63) (fuel := 128) (a := effective h) (lo := 0) (hi := 128)
    (effective_length h).ge (effective_length h).le (by decide) (by decide) (by decide)
  obtain ⟨hs63, hs64⟩ := hsa (splitAt_zero _) (hend _ hperm)
  have hpa := hra.perm.trans hperm
  have h31 := getD_selectRank (k := 31) hpa hsorted hlen (by decide) (by decide) (by decide) (splitAt_zero _) hs63
  obtain ⟨hrb, -⟩ := selectRank_spec (k := 31) (fuel := 128) (a := selectRank 63 128 (effective h) 0 128) (lo := 0) (hi := 63)
    (by rw [hpa.length_eq, hlen]; decide) (by rw [hpa.length_eq, hlen]) (by decide) (by decide) (by decide)
  have hpb := hrb.perm.trans hpa
  have h95 := getD_selectRank (k := 95) hpb hsorted hlen (by decide) (by decide) le_rfl
    (hrb.split 64 (.inr (by decide)) hs64) (hend _ hpb)
  rw [quartiles, ranked, hS, ← h31, ← h63, ← h95]
  rfl

end Sys2Proof.Machine
end

section
/-! PROOFS. The length code of spec/42_finalize.md R101 to R103: `lencode` is the last threshold at or below the length, so it
grows with the length and lies between two neighbouring thresholds. -/

namespace Sys2Proof.Machine

/-- The number of thresholds at or below `n` is the index of the first one above `n`. -/
theorem lencode_eq_findIdx (n : Nat) : lencode n = lengthCodeThresholds.findIdx (fun t => !decide (t ≤ n)) - 1 := by
  rw [lencode, List.takeWhile_eq_take_findIdx_not, List.length_take, Nat.min_eq_left List.findIdx_le_length]

/-- The first threshold is 1. -/
theorem findIdx_pos {n : Nat} (hn : 1 ≤ n) : 0 < lengthCodeThresholds.findIdx fun t => !decide (t ≤ n) := by
  obtain ⟨rest, hcons⟩ : ∃ rest, lengthCodeThresholds = 1 :: rest := ⟨_, rfl⟩
  rw [hcons, List.findIdx_cons]
  simp [hn]

/-- The threshold of a length's code is at most the length (R102). -/
theorem threshold_lencode_le {n d : Nat} (hn : 1 ≤ n) : lengthCodeThresholds.getD (lencode n) d ≤ n := by
  have hpos := findIdx_pos hn
  have hlt : lencode n < lengthCodeThresholds.findIdx fun t => !decide (t ≤ n) := by rw [lencode_eq_findIdx]; omega
  have hle := List.not_of_lt_findIdx hlt
  rw [List.getD_eq_getElem _ _ (hlt.trans_le List.findIdx_le_length)]
  simpa using hle

/-- The next threshold is above the length; behind the last one stands the bound of a 32-bit length (R102). -/
theorem lt_threshold_lencode_succ {n d : Nat} (hn : 1 ≤ n) (hd : n < d) :
    n < lengthCodeThresholds.getD (lencode n + 1) d := by
  have hpos := findIdx_pos hn
  have hsucc : lencode n + 1 = lengthCodeThresholds.findIdx fun t => !decide (t ≤ n) := by rw [lencode_eq_findIdx]; omega
  rw [hsucc]
  by_cases hlt : (lengthCodeThresholds.findIdx fun t => !decide (t ≤ n)) < lengthCodeThresholds.length
  · have hgt := List.findIdx_getElem (w := hlt)
    rw [List.getD_eq_getElem _ _ hlt]
    simpa using hgt
  · rwa [List.getD_eq_default _ _ (by omega)]

/-- Every threshold at or below the shorter length is at or below the longer one. -/
theorem lencode_mono {m n : Nat} (h : m ≤ n) : lencode m ≤ lencode n := by
  rw [lencode_eq_findIdx, lencode_eq_findIdx]
  refine Nat.sub_le_sub_right (List.findIdx_le_findIdx fun t _ ht => ?_) 1
  simp only [Bool.not_eq_true', decide_eq_false_iff_not, not_le] at ht ⊢
  omega

/-- The codes of the shortest and the longest length that `FIN` evaluates, and of the lengths beside the regime changes of
R101. -/
theorem lencode_values : lencode 50 = 9 ∧ lencode 656 = 15 ∧ lencode 657 = 16 ∧ lencode 3199 = 22 ∧
    lencode 3200 = 22 ∧ lencode (2 ^ 32 - 1) = 170 := by decide +kernel

/-- Settles O31: `lencode_mono`, and the codes of the two ends of the range. -/
theorem lengthCodeRange : Obligations.LengthCodeRange := by
  obtain ⟨hmin, -, -, -, -, hmax⟩ := lencode_values
  refine ⟨fun n hlo hhi => ⟨?_, ?_⟩, fun _ _ => lencode_mono⟩
  · exact hmin ▸ lencode_mono hlo
  · exact hmax ▸ lencode_mono (Nat.le_pred_of_lt hhi)

/-! ### The logarithm formula
Each regime `⌊ln n / c - (s + r)⌋` of R101 has the code `k` at `n` exactly if
`exp (c (k + s + r)) ≤ n < exp (c (k + 1 + s + r))`. Both ends are products of powers of `exp c` and of
`exp (c r)`, which the Taylor polynomial encloses to 16 decimal places, so that each threshold is a comparison of natural
numbers. -/

theorem floor_log_eq {c x : ℝ} {n k : ℕ} (hc : 0 < c) (hn : 1 ≤ n) (hlow : Real.exp (c * (k + x)) ≤ n)
    (hhigh : n < Real.exp (c * (k + 1 + x))) : ⌊Real.log n / c - x⌋ = (k : ℤ) := by
  have hpos : (0 : ℝ) < n := by exact_mod_cast hn
  rw [← Real.le_log_iff_exp_le hpos] at hlow
  rw [← Real.log_lt_iff_lt_exp hpos] at hhigh
  rw [Int.floor_eq_iff]
  constructor
  · rw [le_sub_iff_add_le, le_div_iff₀ hc]
    push_cast
    linarith
  · rw [sub_lt_iff_lt_add, div_lt_iff₀ hc]
    push_cast
    linarith

/-- Enclosures, in units of `10^-16`, of `exp c` and of `exp (c r)`, for a regime with the scale `c` and the offset `s + r`. -/
structure LogRegime where
  baseLow : ℕ
  baseHigh : ℕ
  restLow : ℕ
  restHigh : ℕ
  shift : ℕ

namespace LogRegime

/-- What the numbers of a regime stand for. -/
structure Encloses (R : LogRegime) (c r : ℝ) : Prop where
  baseLow_le : R.baseLow / 10 ^ 16 ≤ Real.exp c
  le_baseHigh : Real.exp c ≤ R.baseHigh / 10 ^ 16
  restLow_le : R.restLow / 10 ^ 16 ≤ Real.exp (c * r)
  le_restHigh : Real.exp (c * r) ≤ R.restHigh / 10 ^ 16

/-- By the enclosures, every length from `first` to `last` has the code `k` in the regime. -/
def HasCode (R : LogRegime) (k first last : ℕ) : Prop :=
  R.baseHigh ^ (k + R.shift) * R.restHigh ≤ first * (10 ^ 16) ^ (k + R.shift + 1) ∧
  last * (10 ^ 16) ^ (k + 1 + R.shift + 1) < R.baseLow ^ (k + 1 + R.shift) * R.restLow

variable {R : LogRegime} {c r : ℝ}

theorem exp_eq (c r : ℝ) (k s : ℕ) : Real.exp (c * (k + (s + r))) = Real.exp c ^ (k + s) * Real.exp (c * r) := by
  rw [← Real.exp_nat_mul, ← Real.exp_add]
  congr 1
  push_cast
  ring

theorem Encloses.floor_eq (hR : R.Encloses c r) (hc : 0 < c) {k first last n : ℕ}
    (hcode : R.HasCode k first last) (hn : 1 ≤ n) (hfirst : first ≤ n) (hlast : n ≤ last) :
    ⌊Real.log n / c - (R.shift + r)⌋ = (k : ℤ) := by
  obtain ⟨hbl, hbh, hrl, hrh⟩ := hR
  obtain ⟨hlow, hhigh⟩ := hcode
  have hM (m : ℕ) : (0 : ℝ) < (10 ^ 16) ^ m := by positivity
  refine floor_log_eq hc hn ?_ ?_
  · have hlow' : (R.baseHigh ^ (k + R.shift) * R.restHigh : ℝ) ≤ n * (10 ^ 16) ^ (k + R.shift + 1) := by
      exact_mod_cast hlow.trans (Nat.mul_le_mul_right _ hfirst)
    calc Real.exp (c * (k + (R.shift + r))) = Real.exp c ^ (k + R.shift) * Real.exp (c * r) := exp_eq _ _ _ _
      _ ≤ (R.baseHigh / 10 ^ 16) ^ (k + R.shift) * (R.restHigh / 10 ^ 16) := by gcongr
      _ = R.baseHigh ^ (k + R.shift) * R.restHigh / (10 ^ 16) ^ (k + R.shift + 1) := by
        rw [div_pow, div_mul_div_comm, pow_succ _ (k + R.shift)]
      _ ≤ n := (div_le_iff₀ (hM _)).mpr hlow'
  · have hhigh' : (n * (10 ^ 16) ^ (k + 1 + R.shift + 1) : ℝ) < R.baseLow ^ (k + 1 + R.shift) * R.restLow := by
      exact_mod_cast (Nat.mul_le_mul_right _ hlast).trans_lt hhigh
    calc (n : ℝ) < R.baseLow ^ (k + 1 + R.shift) * R.restLow / (10 ^ 16) ^ (k + 1 + R.shift + 1) :=
          (lt_div_iff₀ (hM _)).mpr hhigh'
      _ = (R.baseLow / 10 ^ 16) ^ (k + 1 + R.shift) * (R.restLow / 10 ^ 16) := by
        rw [div_pow, div_mul_div_comm, ← pow_succ]
      _ ≤ Real.exp c ^ (k + 1 + R.shift) * Real.exp (c * r) := by gcongr
      _ = Real.exp (c * (k + 1 + (R.shift + r))) := by rw [← exp_eq]; push_cast; rfl

/-- The Taylor polynomial of degree 14 encloses `exp` on `[0, 1]`. -/
theorem exp_mem_of_taylor {x low high : ℝ} (h0 : 0 ≤ x) (h1 : x ≤ 1)
    (hlow : low ≤ ∑ i ∈ Finset.range 15, x ^ i / i.factorial)
    (hhigh : (∑ i ∈ Finset.range 15, x ^ i / i.factorial) + x ^ 15 * (15 + 1) / ((15 : ℕ).factorial * 15) ≤ high) :
    low ≤ Real.exp x ∧ Real.exp x ≤ high :=
  ⟨hlow.trans (Real.sum_le_exp_of_nonneg h0 15),
    le_trans (by exact_mod_cast Real.exp_bound' h0 h1 (n := 15) (by decide)) hhigh⟩

theorem Encloses.of_mem (hbase : R.baseLow / 10 ^ 16 ≤ Real.exp c ∧ Real.exp c ≤ R.baseHigh / 10 ^ 16)
    (hrest : R.restLow / 10 ^ 16 ≤ Real.exp (c * r) ∧ Real.exp (c * r) ≤ R.restHigh / 10 ^ 16) : R.Encloses c r :=
  ⟨hbase.1, hbase.2, hrest.1, hrest.2⟩

/-- Lengths up to 656: `c = 0.4054651` and no offset. -/
def short : LogRegime := ⟨14999999878377534, 14999999878377535, 10 ^ 16, 10 ^ 16, 0⟩

/-- Lengths from 657 to 3199: `c = 0.26236426`, offset `8 + 0.72777`. -/
def middle : LogRegime := ⟨12999999941922616, 12999999941922617, 12103878403925920, 12103878403925921, 8⟩

/-- Lengths from 3200: `c = 0.095310180`, offset `62 + 0.5472`. -/
def long : LogRegime := ⟨11000000002152426, 11000000002152427, 10535376909366224, 10535376909366225, 62⟩

theorem short_encloses : short.Encloses 0.4054651 0 := by
  refine .of_mem (exp_mem_of_taylor ?_ ?_ ?_ ?_) (by norm_num [short]) <;>
    norm_num [short, Finset.sum_range_succ, Nat.factorial]

theorem middle_encloses : middle.Encloses 0.26236426 0.72777 := by
  refine .of_mem (exp_mem_of_taylor ?_ ?_ ?_ ?_) (exp_mem_of_taylor ?_ ?_ ?_ ?_) <;>
    norm_num [middle, Finset.sum_range_succ, Nat.factorial]

theorem long_encloses : long.Encloses 0.095310180 0.5472 := by
  refine .of_mem (exp_mem_of_taylor ?_ ?_ ?_ ?_) (exp_mem_of_taylor ?_ ?_ ?_ ?_) <;>
    norm_num [long, Finset.sum_range_succ, Nat.factorial]

/-! ### The thresholds against the formula: one comparison of natural numbers at each end of each code -/

theorem short_hasCode : ∀ k < 16, short.HasCode k (lengthCodeThresholds.getD k (2 ^ 32))
    (lengthCodeThresholds.getD (k + 1) (2 ^ 32) - 1) := by
  unfold HasCode
  decide +kernel

theorem middle_hasCode : ∀ k < 23, 16 ≤ k → middle.HasCode k (lengthCodeThresholds.getD k (2 ^ 32))
    (min 3199 (lengthCodeThresholds.getD (k + 1) (2 ^ 32) - 1)) := by
  unfold HasCode
  decide +kernel

theorem long_hasCode : ∀ k < 171, 22 ≤ k → long.HasCode k (max 3200 (lengthCodeThresholds.getD k (2 ^ 32)))
    (lengthCodeThresholds.getD (k + 1) (2 ^ 32) - 1) := by
  unfold HasCode
  decide +kernel

end LogRegime

section Regimes

variable {n : ℕ} (hn : 1 ≤ n) (hmax : n < 2 ^ 32)

include hn hmax

/-- A length lies between the threshold of its code and the next one. -/
theorem lencode_bounds : lengthCodeThresholds.getD (lencode n) (2 ^ 32) ≤ n ∧
    n ≤ lengthCodeThresholds.getD (lencode n + 1) (2 ^ 32) - 1 :=
  ⟨threshold_lencode_le hn, Nat.le_sub_one_of_lt (lt_threshold_lencode_succ hn hmax)⟩

theorem floor_log_short (h : n ≤ 656) : ⌊Real.log n / 0.4054651⌋ = (lencode n : ℤ) := by
  obtain ⟨hlow, hhigh⟩ := lencode_bounds hn hmax
  obtain ⟨-, hlast, -⟩ := lencode_values
  have hk : lencode n ≤ 15 := hlast ▸ lencode_mono h
  have hfloor := LogRegime.short_encloses.floor_eq (by norm_num) (LogRegime.short_hasCode _ (by omega)) hn hlow hhigh
  rwa [show (LogRegime.short.shift + 0 : ℝ) = 0 by norm_num [LogRegime.short], sub_zero] at hfloor

theorem floor_log_middle (h : 657 ≤ n) (h' : n ≤ 3199) : ⌊Real.log n / 0.26236426 - 8.72777⌋ = (lencode n : ℤ) := by
  obtain ⟨hlow, hhigh⟩ := lencode_bounds hn hmax
  obtain ⟨-, -, hfirst, hlast, -⟩ := lencode_values
  have hk : 16 ≤ lencode n := hfirst ▸ lencode_mono h
  have hk' : lencode n ≤ 22 := hlast ▸ lencode_mono h'
  have hfloor := LogRegime.middle_encloses.floor_eq (by norm_num) (LogRegime.middle_hasCode _ (by omega) hk) hn hlow
    (le_min h' hhigh)
  rwa [show (LogRegime.middle.shift + 0.72777 : ℝ) = 8.72777 by norm_num [LogRegime.middle]] at hfloor

theorem floor_log_long (h : 3200 ≤ n) : ⌊Real.log n / 0.095310180 - 62.5472⌋ = (lencode n : ℤ) := by
  obtain ⟨hlow, hhigh⟩ := lencode_bounds hn hmax
  obtain ⟨-, -, -, -, hfirst, hlast⟩ := lencode_values
  have hk : 22 ≤ lencode n := hfirst ▸ lencode_mono h
  have hk' : lencode n ≤ 170 := hlast ▸ lencode_mono (Nat.le_sub_one_of_lt hmax)
  have hfloor := LogRegime.long_encloses.floor_eq (by norm_num) (LogRegime.long_hasCode _ (by omega) hk) hn
    (max_le h hlow) hhigh
  rwa [show (LogRegime.long.shift + 0.5472 : ℝ) = 62.5472 by norm_num [LogRegime.long]] at hfloor

end Regimes

/-- Settles O30: the formula of each regime gives the code of every length in it, and no code reaches 255. -/
theorem lengthCodeIsLogFormula : Obligations.LengthCodeIsLogFormula := by
  intro n hn hmax
  obtain ⟨-, -, -, -, -, hlast⟩ := lencode_values
  have hcode : lencode n ≤ 170 := hlast ▸ lencode_mono (Nat.le_sub_one_of_lt hmax)
  have hmod : (lencode n : ℤ) % 255 = lencode n := Int.emod_eq_of_lt (by omega) (by omega)
  split_ifs with hshort hmiddle
  · rw [floor_log_short hn hmax hshort, hmod]
  · rw [floor_log_middle hn hmax (by omega) hmiddle, hmod]
  · rw [floor_log_long hn hmax (by omega), hmod]

end Sys2Proof.Machine
end

section
/-! PROOFS. The quartiles are the ranks 31, 63, 95 of any ascending arrangement of the effective counters (spec/42_finalize.md
R96), and `digestOf` is the zero digest or the record of R104 to R108. -/

namespace Sys2Proof.Machine

/-! ### Quartiles -/

/-- The value of bucket `k`. -/
def counts (h : Vector Counter 256) (k : Nat) : Nat := (h.getD k 0).toNat

theorem counts_eq_zero_iff {h : Vector Counter 256} {k : Nat} : counts h k = 0 ↔ h.getD k 0 = 0 := by
  rw [counts, ← BitVec.toNat_inj]
  rfl

theorem effective_eq_map (h : Vector Counter 256) : effective h = (List.range 128).map (counts h) := by
  refine List.ext_getElem (by simp [effective]) fun k hk _ => ?_
  have hlt : k < 256 := by simp [effective] at hk; omega
  simp [effective, counts, Vector.getD, hlt]

section Sorted

variable {S : List Nat} {count : Nat → Nat}

theorem sortsEffective.length_eq (hS : sortsEffective S count) : S.length = 128 := by rw [hS.1.length_eq]; simp

theorem sortsEffective.congr {count' : Nat → Nat} (hS : sortsEffective S count) (h : ∀ k < 128, count k = count' k) :
    sortsEffective S count' := by
  refine ⟨?_, hS.2⟩
  rw [← List.map_congr_left fun k hk => h k (List.mem_range.mp hk)]
  exact hS.1

/-- Two ascending arrangements of the same counters are one. -/
theorem quartiles_eq_ranked {h : Vector Counter 256} (hS : sortsEffective S (counts h)) : quartiles h = ranked S := by
  obtain ⟨hperm, hsorted⟩ := hS
  rw [quartiles, ((List.perm_insertionSort _ _).trans (effective_eq_map h ▸ hperm.symm)).eq_of_pairwise
    (fun _ _ _ _ => Nat.le_antisymm) (List.pairwise_insertionSort _ _) hsorted]

/-- A positive value at rank 95 leaves at least the 33 counters from there on non-zero (R100). -/
theorem sortsEffective.lt_countP (hS : sortsEffective S count) (hpos : 0 < S.getD 95 0) :
    32 < (List.range 128).countP (fun k => count k ≠ 0) := by
  have hlen := hS.length_eq
  obtain ⟨hperm, hsorted⟩ := hS
  rw [List.getD_eq_getElem _ _ (by omega)] at hpos
  have htop (x : Nat) (hx : x ∈ S.drop 95) : decide (x ≠ 0) = true := by
    obtain ⟨u, hu, rfl⟩ := List.mem_drop_iff_getElem.mp hx
    have hle : S[95] ≤ S[95 + u] := by
      rcases Nat.eq_zero_or_pos u with rfl | hu0
      · exact le_rfl
      · exact List.pairwise_iff_getElem.mp hsorted _ _ _ _ (by omega)
    simp; omega
  calc 32 < (S.drop 95).length := by rw [List.length_drop, hlen]; decide
    _ = (S.drop 95).countP (fun x => decide (x ≠ 0)) := (List.countP_eq_length.mpr htop).symm
    _ ≤ S.countP (fun x => decide (x ≠ 0)) := (List.drop_sublist _ _).countP_le
    _ = (List.range 128).countP (fun k => decide (count k ≠ 0)) := by rw [hperm.countP_eq, List.countP_map]; rfl

end Sorted

/-- The sort of the effective counters is an ascending arrangement. -/
theorem sortsEffective_insertionSort (h : Vector Counter 256) :
    sortsEffective ((effective h).insertionSort (· ≤ ·)) (counts h) :=
  ⟨effective_eq_map h ▸ List.perm_insertionSort _ _, List.pairwise_insertionSort _ _⟩

/-! ### The fields of a digest -/

theorem ratio_toNat (q q3 : Nat) : (ratio q q3).toNat = q * 100 / q3 % 16 := by
  rw [ratio, BitVec.toNat_ofNat]
  omega

theorem ratioByte_toNat (q : Quartiles) :
    (ratioByte q).toNat = 16 * (q.q1 * 100 / q.q3 % 16) + q.q2 * 100 / q.q3 % 16 := by
  rw [ratioByte, toNat_append_eq_add, ratio_toNat, ratio_toNat, show 2 ^ 4 = 16 from rfl]

theorem code_toNat (q : Quartiles) (c : Nat) :
    (code q c).toNat = if c ≤ q.q1 then 0 else if c ≤ q.q2 then 1 else if c ≤ q.q3 then 2 else 3 := by
  unfold code
  split_ifs <;> rfl

/-- Four 2-bit codes shifted into place and joined, bucket `j` at bits `2j+1 : 2j` (R107). -/
theorem packed_codes (c : Nat → BitVec 2) :
    [0, 1, 2, 3].foldl (fun (v : Byte) j => v ||| (c j).setWidth 8 <<< (2 * j)) 0 = c 3 ++ c 2 ++ c 1 ++ c 0 := by
  have hfour : ∀ c0 c1 c2 c3 : BitVec 2, ((((0 : Byte) ||| c0.setWidth 8 <<< (2 * 0)) ||| c1.setWidth 8 <<< (2 * 1)) |||
      c2.setWidth 8 <<< (2 * 2)) ||| c3.setWidth 8 <<< (2 * 3) = c3 ++ c2 ++ c1 ++ c0 := by decide +kernel
  exact hfour (c 0) (c 1) (c 2) (c 3)

theorem groupByte_code (q : Quartiles) (h : Vector Counter 256) (g : Nat) (j : Fin 4) :
    (groupByte q h g).toNat / 4 ^ j.val % 4 = (code q (counts h (4 * g + j))).toNat := by
  have hpack : groupByte q h g = code q (counts h (4 * g + 3)) ++ code q (counts h (4 * g + 2)) ++
      code q (counts h (4 * g + 1)) ++ code q (counts h (4 * g + 0)) :=
    packed_codes fun j => code q (counts h (4 * g + j))
  have h0 := (code q (counts h (4 * g + 0))).isLt
  have h1 := (code q (counts h (4 * g + 1))).isLt
  have h2 := (code q (counts h (4 * g + 2))).isLt
  have h3 := (code q (counts h (4 * g + 3))).isLt
  rw [hpack, toNat_append_eq_add, toNat_append_eq_add, toNat_append_eq_add]
  fin_cases j <;> simp only [] <;> omega

theorem bodyOf_getElem (q : Quartiles) (h : Vector Counter 256) (k : Fin 32) : (bodyOf q h)[31 - k.val] = groupByte q h k := by
  simp only [bodyOf, Vector.getElem_ofFn]
  congr 1
  omega

/-! ### The digest of the accumulator -/

section DigestOf

variable {s : Arch} {S : List Nat}

theorem digestOf_of_short (hlen : s.len.toNat < 50) : digestOf s = Digest.zero := if_pos hlen

theorem digestOf_of_degenerate (hq3 : (quartiles s.hist).q3 = 0) : digestOf s = Digest.zero := by
  simp [digestOf, hq3]

theorem digestOf_of_regular (hlen : 50 ≤ s.len.toNat) (hq3 : (quartiles s.hist).q3 ≠ 0) : digestOf s =
    ⟨s.cksum, BitVec.ofNat 8 (lencode s.len.toNat), ratioByte (quartiles s.hist), bodyOf (quartiles s.hist) s.hist⟩ := by
  have hshort : ¬ s.len.toNat < minLength := by simpa [minLength] using hlen
  simp [digestOf, hshort, hq3]

theorem digestOf_isDigestOf (hlen : 50 ≤ s.len.toNat) (hS : sortsEffective S (counts s.hist)) (hpos : 0 < S.getD 95 0) :
    IsDigestOf (digestOf s) S s.cksum s.len.toNat (counts s.hist) := by
  have hq := quartiles_eq_ranked hS
  rw [digestOf_of_regular hlen (by rw [hq]; exact hpos.ne'), hq]
  have hcode : lencode s.len.toNat ≤ 170 := (lengthCodeRange.1 _ hlen s.len.isLt).2
  have hlc : (BitVec.ofNat 8 (lencode s.len.toNat)).toNat = lencode s.len.toNat := by
    rw [BitVec.toNat_ofNat]; omega
  have hqr := ratioByte_toNat (ranked S)
  simp only [ranked] at hqr
  exact {
    ck_eq := rfl
    lc_low := by rw [hlc]; exact threshold_lencode_le (by omega)
    lc_high := by rw [hlc]; exact lt_threshold_lencode_succ (by omega) s.len.isLt
    q1_ratio := by simp only [ranked]; omega
    q2_ratio := by simp only [ranked]; omega
    body_code := fun k j => by rw [bodyOf_getElem, groupByte_code, code_toNat]; rfl }

/-- Only the length, the checksum and the effective counters enter a digest (R97, R110). -/
theorem digestOf_congr {t : Arch} (hlen : t.len = s.len) (hcksum : t.cksum = s.cksum)
    (hcounts : ∀ k < 128, t.hist.getD k 0 = s.hist.getD k 0) : digestOf t = digestOf s := by
  have heffective : effective t.hist = effective s.hist := by
    rw [effective_eq_map, effective_eq_map]
    exact List.map_congr_left fun k hk => congrArg BitVec.toNat (hcounts k (List.mem_range.mp hk))
  have hquart : quartiles t.hist = quartiles s.hist := by rw [quartiles, quartiles, heffective]
  have hbody (q : Quartiles) : bodyOf q t.hist = bodyOf q s.hist := by
    refine Vector.ext fun i hi => ?_
    simp only [bodyOf, Vector.getElem_ofFn, groupByte, List.foldl_cons, List.foldl_nil]
    rw [hcounts _ (by omega), hcounts _ (by omega), hcounts _ (by omega), hcounts _ (by omega)]
  simp only [digestOf, hlen, hcksum, hquart, hbody]

end DigestOf

end Sys2Proof.Machine
end

section
/-! PROOFS. The command `FIN` (spec/42_finalize.md R110): what it writes and keeps in phase Accumulating, and with it the digest
of a byte list (R112). -/

namespace Sys2Proof.Machine

@[simp] theorem digest_setPhase (s : Arch) (d : DigestReg) (p : Phase) : (s.setPhase p).digest d = s.digest d := by
  cases d <;> rfl

@[simp] theorem digest_setHist (s : Arch) (d : DigestReg) (h : Vector Counter 256) : (s.setHist h).digest d = s.digest d := by
  cases d <;> rfl

@[simp] theorem valid_setPhase (s : Arch) (d : DigestReg) (p : Phase) : (s.setPhase p).valid d = s.valid d := by
  cases d <;> rfl

theorem finEffect_of_finalized {s : Arch} (d : DigestReg) (hphase : s.phase = .finalized) :
    finEffect d s = s.raise .phase := by
  simp [finEffect, s.finalized_iff.mpr hphase]

theorem finEffect_of_accumulating {s : Arch} (d : DigestReg) (hphase : s.phase = .accumulating) :
    finEffect d s = ((s.putDigest d (digestOf s)).setPhase .finalized).complete := by
  simp [finEffect, s.not_finalized_iff.mpr hphase]

/-- Settles O27. -/
theorem finRefused : Obligations.FinRefused := by
  intro d s hphase
  rw [exec_eq, perform, finEffect_of_finalized d hphase]
  rfl

/-- The state a successful `FIN d` leaves: the digest of the accumulator in `D[d]`, phase Finalized, and all else as it was. -/
structure FinCompletes (d : DigestReg) (s t : Arch) : Prop where
  digest_eq : t.digest d = digestOf s
  valid_eq : t.valid d = true
  phase_eq : t.phase = .finalized
  lerr_eq : t.lerr = 0
  err_eq : t.err = s.err
  others : ∀ e, e ≠ d → t.digest e = s.digest e ∧ t.valid e = s.valid e
  hist_eq : t.hist = s.hist
  window_eq : t.window = s.window
  len_eq : t.len = s.len
  cksum_eq : t.cksum = s.cksum
  loader : t.sameLoader s
  results : t.sameResults s

theorem finEffect_completes {s : Arch} (d : DigestReg) (hphase : s.phase = .accumulating) :
    FinCompletes d s (finEffect d s) := by
  rw [finEffect_of_accumulating d hphase]
  constructor <;> simp +contextual [Arch.digest_putDigest, Arch.valid_putDigest, Arch.sameLoader, Arch.sameResults]

/-- Settles O25: a positive third quartile needs 33 non-zero counters, so that the digest is zero under either condition. -/
theorem finOfSmallOrDegenerateInput : Obligations.FinOfSmallOrDegenerateInput := by
  intro d s hphase hcond
  have hzero : digestOf s.toArch = Digest.zero := by
    rcases hcond with hshort | hsparse
    · exact digestOf_of_short hshort
    · refine digestOf_of_degenerate (Nat.eq_zero_of_not_pos fun hpos => ?_)
      have hmany := (sortsEffective_insertionSort s.hist).lt_countP hpos
      simp only [ne_eq, counts_eq_zero_iff] at hmany
      exact absurd hmany (not_lt.mpr hsparse)
  have h := finEffect_completes d hphase
  exact ⟨_, exec_next.mpr rfl, h.digest_eq.trans hzero, h.valid_eq, h.phase_eq, h.lerr_eq, h.err_eq, h.others, h.hist_eq,
    h.window_eq, h.len_eq, h.cksum_eq, h.loader, h.results, rfl⟩

/-- Settles O26. -/
theorem finWritesDigest : Obligations.FinWritesDigest := by
  intro d s S hphase hlen hS hpos
  have h := finEffect_completes d hphase
  exact ⟨_, exec_next.mpr rfl, h.digest_eq ▸ digestOf_isDigestOf hlen hS hpos, h.valid_eq, h.phase_eq, h.lerr_eq, h.err_eq,
    h.others, h.hist_eq, h.window_eq, h.len_eq, h.cksum_eq, h.loader, h.results, rfl⟩

/-- In phase Finalized neither `FIN` writes a digest; in phase Accumulating both write the same one. -/
theorem finEffect_setHist_digest (d : DigestReg) {s : Arch} {h : Vector Counter 256}
    (hagree : ∀ k < 128, h.getD k 0 = s.hist.getD k 0) :
    (finEffect d (s.setHist h)).digest d = (finEffect d s).digest d := by
  cases hphase : s.phase with
  | finalized => rw [finEffect_of_finalized d hphase, finEffect_of_finalized d (s := s.setHist h) hphase]; simp
  | accumulating =>
    calc (finEffect d (s.setHist h)).digest d = digestOf (s.setHist h) :=
        (finEffect_completes (s := s.setHist h) d hphase).digest_eq
      _ = digestOf s := digestOf_congr rfl rfl hagree
      _ = (finEffect d s).digest d := (finEffect_completes d hphase).digest_eq.symm

/-- Settles O28. -/
theorem upperBucketsIgnored : Obligations.UpperBucketsIgnored := by
  intro d s t t' h hagree hexec hexec'
  cases exec_next.mp hexec
  cases exec_next.mp hexec'
  refine finEffect_setHist_digest d (s := s.toArch) fun k hk => ?_
  have hlt : k < 256 := by omega
  simpa [Vector.getD, hlt] using hagree ⟨k, hk⟩

/-! ### The digest of a byte list -/

theorem runCommands_append {is js : List Instr} {s t : State} (h : runCommands is s = .next t) :
    runCommands (is ++ js) s = runCommands js t := by
  induction is generalizing s with
  | nil => cases h; rfl
  | cons i is ih =>
    rw [runCommands_cons] at h
    rw [List.cons_append, runCommands_cons, ih h]

theorem IsDigestOf.congr {g : Digest} {S : List Nat} {ck : Byte} {n : Nat} {count count' : Nat → Nat}
    (hg : IsDigestOf g S ck n count) (h : ∀ k < 128, count k = count' k) : IsDigestOf g S ck n count' where
  ck_eq := hg.ck_eq
  lc_low := hg.lc_low
  lc_high := hg.lc_high
  q1_ratio := hg.q1_ratio
  q2_ratio := hg.q2_ratio
  body_code k j := by rw [hg.body_code, h _ (by omega)]

theorem Arch.HoldsAcc.counts_eq {T : Byte → Byte} {bs : List Byte} {s : Arch} (h : s.HoldsAcc T bs)
    (hlen : bs.length < 2 ^ 32) {k : Nat} (hk : k < 256) : counts s.hist k = inputCount T bs (BitVec.ofNat 8 k) := by
  have hget : s.hist.getD k 0 = s.hist[(⟨k, hk⟩ : Fin 256)] := by simp [Vector.getD, hk]
  rw [counts, hget, getElem_eq_memReadHist, h.hist_eq, BitVec.toNat_ofNat, Nat.mod_eq_of_lt (inputCount_lt T hlen _)]

/-- Settles O29: the `FEED`s leave `acc` of the bytes (R91), and `FIN` writes its digest. -/
theorem hashingComputesDigest : Obligations.HashingComputesDigest := by
  intro bs d s S hzero hlen hS
  obtain ⟨t, hrun, hacc, hframe⟩ :=
    runCommands_feeds (bs := bs) (Arch.HoldsAcc.of_accumulatorZero memReadSbox hzero) (by simpa using hlen)
  rw [List.nil_append] at hacc
  have hcounts (k : Nat) (hk : k < 128) : inputCount Config.sbox bs (BitVec.ofNat 8 k) = counts t.hist k :=
    (hacc.counts_eq hlen (by omega)).symm
  have hSt := hS.congr hcounts
  have hfin := finEffect_completes d hacc.phase_eq
  have herr : t.err = s.err := by rw [hframe]
  refine ⟨_, (runCommands_append hrun).trans (runCommands_cons (.fin d) [] t), hfin.valid_eq, hfin.phase_eq, hfin.lerr_eq,
    hfin.err_eq.trans herr, fun hcond => hfin.digest_eq.trans ?_, fun hlong hpos => hfin.digest_eq ▸ ?_⟩
  · rcases hcond with hshort | hq3
    · exact digestOf_of_short (hacc.len_eq ▸ hshort)
    · exact digestOf_of_degenerate (by rw [quartiles_eq_ranked hSt]; exact hq3)
  · have hdigest := digestOf_isDigestOf (hacc.len_eq ▸ hlong) hSt hpos
    rw [hacc.len_eq, hacc.cksum_eq] at hdigest
    exact hdigest.congr fun k hk => (hcounts k hk).symm

end Sys2Proof.Machine
end

section
/-! PROOFS. The formats of a digest (spec/43_digest_codec.md R115 to R120): a byte is its two nibbles, the 35 wire bytes and
the digest determine each other, and a hex digit stands for one nibble. -/

namespace Sys2Proof.Machine

/-! ### Nibbles -/

theorem highNibble_append_lowNibble (b : Byte) : highNibble b ++ lowNibble b = b := by
  rw [highNibble, lowNibble]
  exact BitVec.extractLsb'_append_extractLsb'

theorem highNibble_toNat (b : Byte) : (highNibble b).toNat = b.toNat / 16 := by
  have h := b.isLt
  rw [highNibble, BitVec.extractLsb'_toNat, Nat.shiftRight_eq_div_pow]
  omega

theorem lowNibble_toNat (b : Byte) : (lowNibble b).toNat = b.toNat % 16 := by
  rw [lowNibble, BitVec.extractLsb'_toNat, Nat.shiftRight_zero]

theorem swap_toNat (x : Byte) : (swap x).toNat = 16 * (x.toNat % 16) + x.toNat / 16 := by
  rw [swap, toNat_append_eq_add, lowNibble_toNat, highNibble_toNat]
  rfl

@[simp] theorem swap_swap (x : Byte) : swap (swap x) = x := by
  refine BitVec.eq_of_toNat_eq ?_
  rw [swap_toNat, swap_toNat]
  omega

/-- Settles O33. -/
theorem swapExchangesNibbles : Obligations.SwapExchangesNibbles := fun x => ⟨swap_toNat x, swap_swap x⟩

/-! ### The wire format -/

theorem wire_getElem_body (g : Digest) (k : Nat) (hk : k < 32) : (wire g)[3 + k] = g.body[k] := by
  rw [wire_getElem, Nat.add_comm, wireByte_body g k hk]

/-- Settles O34. -/
theorem wireLayout : Obligations.WireLayout := fun g =>
  ⟨wire_getElem g 0 _, wire_getElem g 1 _, wire_getElem g 2 _, fun i => wire_getElem_body g i.val i.isLt⟩

theorem unwire_wire (g : Digest) : unwire (wire g) = g := by
  apply Digest.ext
  · simp
  · simp
  · simp
  · refine Vector.ext fun k hk => ?_
    rw [unwire_body _ k hk, wire_getElem_body g k hk]

theorem wire_unwire (B : Vector Byte 35) : wire (unwire B) = B := by
  refine Vector.ext fun i hi => ?_
  rw [wire_getElem _ i hi]
  match i with
  | 0 => simp
  | 1 => simp
  | 2 => simp
  | k + 3 =>
    rw [wireByte_body _ k (by omega), unwire_body B k (by omega)]
    congr 1
    omega

/-- Settles O35. -/
theorem wireUnwireInverse : Obligations.WireUnwireInverse :=
  ⟨fun B => ⟨unwire_ck B, unwire_lc B, unwire_qr B, fun i => unwire_body B i.val i.isLt⟩, unwire_wire, wire_unwire⟩

/-! ### Hex digits -/

theorem hexChar_toNat (n : Nibble) : (hexChar n).toNat = if n.toNat ≤ 9 then 0x30 + n.toNat else 0x57 + n.toNat := by
  have h := n.isLt
  unfold hexChar
  split <;> rw [BitVec.toNat_ofNat] <;> omega

@[simp] theorem hexVal_hexChar (n : Nibble) : hexVal (hexChar n) = some n := by
  revert n
  decide

theorem hexVal_eq_none_iff (c : Byte) : hexVal c = none ↔ c.toNat ∉ hexDigitCodes := by
  simp only [hexVal]
  split_ifs <;> simp [hexDigitCodes] <;> omega

/-- Settles O36: the values of the 22 digits are read off one by one. (`hexDigitCodes` itself is the model's list.) -/
theorem hexDigitCodes_hold : Obligations.HexDigitCodes :=
  ⟨hexChar_toNat, hexVal_hexChar, hexVal_eq_none_iff, by decide, by decide⟩

/-! ### The text format -/

/-- The nibble that character `i` of a text spells: the high one of a wire byte at an even index (R119). -/
def textNibble (g : Digest) (i : Nat) : Nibble :=
  if i % 2 = 0 then highNibble (wireByte g (i / 2)) else lowNibble (wireByte g (i / 2))

theorem textChar_eq_hexChar (g : Digest) {i : Nat} (hi : i < 70) : textChar g i = hexChar (textNibble g i) := by
  rw [textChar, wire_getD g (i / 2) (by omega), textNibble]

theorem text_length (g : Digest) : (text g).length = 70 := by simp [text]

theorem text_getD (g : Digest) {i : Nat} (hi : i < 70) : (text g).getD i 0 = textChar g i := by
  simp [text, List.getD_eq_getElem?_getD, hi]

/-- The 70 nibbles a text spells. -/
def textNibbles (g : Digest) : List Nibble := (List.range 70).map (textNibble g)

theorem textNibbles_length (g : Digest) : (textNibbles g).length = 70 := by simp [textNibbles]

theorem textNibbles_getD (g : Digest) {i : Nat} (hi : i < 70) : (textNibbles g).getD i 0 = textNibble g i := by
  simp [textNibbles, List.getD_eq_getElem?_getD, hi]

theorem text_map_hexVal (g : Digest) : (text g).map hexVal = (textNibbles g).map some := by
  rw [text, textNibbles, List.map_map, List.map_map]
  refine List.map_congr_left fun i hi => ?_
  rw [Function.comp_apply, textChar_eq_hexChar g (List.mem_range.mp hi), hexVal_hexChar, Function.comp_apply]

/-- Byte `k` that a list of nibbles spells, high nibble first; a nibble the list does not reach is 0. -/
def spelledByte (ns : List Nibble) (k : Nat) : Byte := ns.getD (2 * k) 0 ++ ns.getD (2 * k + 1) 0

/-- The 35 bytes that a list of nibbles spells. -/
def spelledBytes (ns : List Nibble) : Vector Byte 35 := Vector.ofFn fun k => spelledByte ns k.val

theorem spelledByte_toNat (ns : List Nibble) (k : Nat) :
    (spelledByte ns k).toNat = 16 * (ns.getD (2 * k) 0).toNat + (ns.getD (2 * k + 1) 0).toNat :=
  toNat_append_eq_add _ _

theorem spelledBytes_textNibbles (g : Digest) : spelledBytes (textNibbles g) = wire g := by
  refine Vector.ext fun k hk => ?_
  have heven : 2 * k % 2 = 0 ∧ 2 * k / 2 = k := by omega
  have hodd : (2 * k + 1) % 2 = 1 ∧ (2 * k + 1) / 2 = k := by omega
  simp only [spelledBytes, Vector.getElem_ofFn, spelledByte]
  rw [textNibbles_getD g (by omega), textNibbles_getD g (by omega), wire_getElem]
  simp [textNibble, heven, hodd, highNibble_append_lowNibble]

/-! ### The spelled bytes of a list with one more nibble -/

theorem spelledByte_concat_of_lt {ns : List Nibble} (n : Nibble) {k : Nat} (hk : 2 * k + 1 < ns.length) :
    spelledByte (ns ++ [n]) k = spelledByte ns k := by
  rw [spelledByte, List.getD_append _ _ _ _ (by omega), List.getD_append _ _ _ _ hk, spelledByte]

theorem spelledByte_concat_of_even {ns : List Nibble} (n : Nibble) {k : Nat} (hk : ns.length = 2 * k) :
    spelledByte (ns ++ [n]) k = n ++ 0#4 := by
  simp [spelledByte, hk]

theorem setWidth_eq_zero_append (n : Nibble) : n.setWidth 8 = 0#4 ++ n := BitVec.setWidth_eq_append (by decide)

/-- The last nibble of an odd list fills the low half, which was still 0. -/
theorem spelledByte_concat_of_odd {ns : List Nibble} (n : Nibble) {k : Nat} (hk : ns.length = 2 * k + 1) :
    spelledByte (ns ++ [n]) k = spelledByte ns k ||| n.setWidth 8 := by
  rw [setWidth_eq_zero_append, spelledByte, spelledByte, BitVec.or_append, List.getD_append _ _ _ _ (by omega)]
  simp [hk]

end Sys2Proof.Machine
end

section
/-! PROOFS. The codec commands one by one (spec/43_digest_codec.md R121 to R125): when each completes, when it faults, and
what it leaves. -/

namespace Sys2Proof.Machine

section Effects

variable {s : Arch}

/-! ### The loader commands -/

theorem ldbEffect_of_spoiled (v : Byte) (h : s.lbad = true ∨ s.lpos.toNat % 2 = 1 ∨ 70 ≤ s.lpos.toNat) :
    ldbEffect v s = s.spoilLoad := by
  rcases ldbEffect_cases v s with ⟨_, heq⟩ | ⟨hgood, heven, hroom, _⟩
  · exact heq
  · rcases h with h | h | h
    · cases hgood.symm.trans h
    · omega
    · omega

theorem ldbEffect_of_room (v : Byte) (hgood : s.lbad = false) (heven : s.lpos.toNat % 2 = 0) (hroom : s.lpos.toNat < 70) :
    ldbEffect v s = ((s.setLbuf (memWriteLbuf s.lbuf (s.lpos.toNat / 2) v)).setLpos (s.lpos + 2)).complete := by
  rcases ldbEffect_cases v s with ⟨h | h | h, _⟩ | ⟨_, _, _, heq⟩
  · cases hgood.symm.trans h
  · omega
  · omega
  · exact heq

theorem ldxEffect_of_spoiled {c : Byte} (h : s.lbad = true ∨ hexVal c = none ∨ 70 ≤ s.lpos.toNat) :
    ldxEffect c s = s.spoilLoad := by
  rcases ldxEffect_cases c s with ⟨_, heq⟩ | ⟨n, hn, hgood, hroom, _⟩
  · exact heq
  · rcases h with h | h | h
    · cases hgood.symm.trans h
    · cases hn.symm.trans h
    · omega

theorem ldxEffect_of_digit {c : Byte} {n : Nibble} (hn : hexVal c = some n) (hgood : s.lbad = false)
    (hroom : s.lpos.toNat < 70) : ldxEffect c s =
      ((s.setLbuf (memWriteLbuf s.lbuf (s.lpos.toNat / 2) (loadedNibble s n))).setLpos (s.lpos + 1)).complete := by
  rcases ldxEffect_cases c s with ⟨h | h | h, _⟩ | ⟨m, hm, _, _, heq⟩
  · cases hgood.symm.trans h
  · cases hn.symm.trans h
  · omega
  · cases hn.symm.trans hm
    exact heq

theorem loadedNibble_of_even (n : Nibble) (heven : s.lpos.toNat % 2 = 0) : loadedNibble s n = n ++ 0#4 := by
  have hhalf : s.halfByte = false := by simp [Arch.halfByte, heven]
  have hn := n.isLt
  rw [loadedNibble, hhalf, if_neg Bool.false_ne_true]
  refine BitVec.eq_of_toNat_eq ?_
  rw [toNat_append_eq_add, BitVec.toNat_shiftLeft, Nat.shiftLeft_eq, BitVec.toNat_setWidth]
  simp only [BitVec.toNat_ofNat]
  omega

theorem loadedNibble_of_odd (n : Nibble) {k : Nat} (hk : k < 35) (hodd : s.lpos.toNat = 2 * k + 1) :
    loadedNibble s n = s.lbuf[k] ||| n.setWidth 8 := by
  have hhalf : s.halfByte = true := s.halfByte_iff.mpr (by omega)
  have hindex : s.lpos.toNat / 2 = k := by omega
  rw [loadedNibble, hhalf, if_pos rfl, hindex, memReadLbuf_eq _ k hk]

theorem ldcEffect_of_complete (d : DigestReg) (hgood : s.lbad = false) (hfull : s.lpos.toNat = 70) :
    ldcEffect d s = (s.closeLoad.putDigest d (unwire s.lbuf)).complete :=
  if_pos (s.loadComplete_iff.mpr ⟨hgood, hfull⟩)

theorem ldcEffect_of_incomplete (d : DigestReg) (h : s.lbad = true ∨ s.lpos.toNat ≠ 70) :
    ldcEffect d s = s.closeLoad.raise .parse := by
  refine if_neg fun hc => ?_
  obtain ⟨hgood, hfull⟩ := s.loadComplete_iff.mp hc
  rcases h with h | h
  · cases hgood.symm.trans h
  · exact h hfull

/-! ### The reads -/

theorem rdbEffect_of_outside (d : DigestReg) {i : Byte} (hi : 34 < i.toNat) : rdbEffect d i s = s.raise .index := by
  simp [rdbEffect, wireIndexBad, hi]

theorem rdbEffect_of_invalid {d : DigestReg} {i : Byte} (hi : i.toNat ≤ 34) (hv : s.valid d = false) :
    rdbEffect d i s = s.raise .invalid := by
  simp [rdbEffect, wireIndexBad, hi, hv]

theorem rdbEffect_of_valid {d : DigestReg} {i : Byte} (hi : i.toNat ≤ 34) (hv : s.valid d = true) :
    rdbEffect d i s = (s.setDout (wire (s.digest d))[i.toNat]).complete := by
  have hlt : i.toNat < 35 := by omega
  simp [rdbEffect, wireIndexBad, hi, hv, Vector.getD, hlt]

theorem rdxEffect_of_outside (d : DigestReg) {i : Byte} (hi : 69 < i.toNat) : rdxEffect d i s = s.raise .index := by
  simp [rdxEffect, textIndexBad, hi]

theorem rdxEffect_of_invalid {d : DigestReg} {i : Byte} (hi : i.toNat ≤ 69) (hv : s.valid d = false) :
    rdxEffect d i s = s.raise .invalid := by
  simp [rdxEffect, textIndexBad, hi, hv]

theorem rdxEffect_of_valid {d : DigestReg} {i : Byte} (hi : i.toNat ≤ 69) (hv : s.valid d = true) :
    rdxEffect d i s = (s.setDout (textChar (s.digest d) i.toNat)).complete := by
  simp [rdxEffect, textIndexBad, hi, hv]

end Effects

/-- Settles O37. -/
theorem ldbAppendsByte : Obligations.LdbAppendsByte := by
  refine fun v s => ⟨fun hgood heven hroom => ⟨_, exec_eq (.ldb v) s, ?_⟩, fun hbad => ?_⟩
  · rw [perform, ldbEffect_of_room v hgood heven hroom]
    exact ⟨by simp only [Arch.complete_lpos, Arch.setLpos_lpos]; bv_omega,
      fun k => memWriteLbuf_getElem s.lbuf _ k.val v k.isLt, rfl⟩
  · rw [exec_eq, perform, ldbEffect_of_spoiled v hbad]
    rfl

/-- Settles O38: the loaded byte is `loadedNibble_of_even` or `loadedNibble_of_odd`. -/
theorem ldxAppendsDigit : Obligations.LdxAppendsDigit := by
  refine fun c s => ⟨fun n hn hgood hroom => ⟨_, exec_eq (.ldx c) s, ?_⟩, fun hbad => ?_⟩
  · rw [perform, ldxEffect_of_digit hn hgood hroom]
    refine ⟨by simp only [Arch.complete_lpos, Arch.setLpos_lpos]; bv_omega, fun k => ?_, rfl⟩
    refine (memWriteLbuf_getElem s.lbuf _ k.val _ k.isLt).trans (if_ctx_congr Iff.rfl (fun hk => ?_) fun _ => rfl)
    split
    case isTrue heven =>
      rw [loadedNibble_of_even n heven]
      exact BitVec.eq_of_toNat_eq (by rw [toNat_append_eq_add]; simp; omega)
    case isFalse hodd =>
      rw [loadedNibble_of_odd n k.isLt (by omega), BitVec.ofNat_toNat]
      rfl
  · rw [exec_eq, perform, ldxEffect_of_spoiled hbad]
    rfl

/-- Settles O39. -/
theorem ldcCommitsOrFaults : Obligations.LdcCommitsOrFaults := by
  refine fun d s => ⟨fun hgood hfull => ?_, fun hbad => ?_⟩
  · rw [exec_eq, perform, ldcEffect_of_complete d hgood hfull]
    cases d <;> rfl
  · rw [exec_eq, perform, ldcEffect_of_incomplete d hbad]
    rfl

/-- Settles O40. -/
theorem rdbReadsWireByte : Obligations.RdbReadsWireByte := by
  refine fun d i s => ⟨fun hi hv => ?_, fun hi => ?_, fun hi hv => ?_⟩ <;> rw [exec_eq, perform]
  · rw [rdbEffect_of_valid hi hv]
    generalize (wire (s.digest d))[i.toNat] = v
    rfl
  · rw [rdbEffect_of_outside d hi]
    rfl
  · rw [rdbEffect_of_invalid hi hv]
    rfl

/-- Settles O41. -/
theorem rdxReadsHexCharacter : Obligations.RdxReadsHexCharacter := by
  refine fun d i s => ⟨fun hi hv => ?_, fun hi => ?_, fun hi hv => ?_⟩ <;> rw [exec_eq, perform]
  · have hlt : i.toNat / 2 < 35 := by omega
    rw [rdxEffect_of_valid hi hv, textChar, wire_getD _ _ hlt, wire_getElem _ _ hlt]
    rfl
  · rw [rdxEffect_of_outside d hi]
    rfl
  · rw [rdxEffect_of_invalid hi hv]
    rfl

end Sys2Proof.Machine
end

section
/-! PROOFS. Loading a text (spec/43_digest_codec.md R118, R122, R123, R126). After any good digits the loader holds the bytes
they spell, which every `LDX` of one more digit keeps; a load that went wrong stays spoiled up to its `LDC`. -/

namespace Sys2Proof.Machine

/-! ### Good digits -/

/-- The load in progress holds the nibbles `ns`: as many digits are in, and `LBUF` holds the bytes they spell. -/
structure Arch.HoldsNibbles (ns : List Nibble) (s : Arch) : Prop where
  lbad_eq : s.lbad = false
  lpos_eq : s.lpos.toNat = ns.length
  lbuf_eq : ∀ k : Fin 35, 2 * k.val < ns.length → s.lbuf[k] = spelledByte ns k.val

theorem Arch.HoldsNibbles.of_loaderReady {s : Arch} (h : s.loaderReady) : s.HoldsNibbles [] := by
  obtain ⟨hlpos, hlbad⟩ := h
  exact ⟨hlbad, by simp [hlpos], fun k hk => absurd hk (Nat.not_lt_zero _)⟩

/-- The byte an `LDX` stores is the byte the digits spell up to it (R122). -/
theorem Arch.HoldsNibbles.loadedNibble_eq {ns : List Nibble} {s : Arch} (h : s.HoldsNibbles ns) (n : Nibble) {k : Nat}
    (hk : k < 35) (hhalf : s.lpos.toNat / 2 = k) : loadedNibble s n = spelledByte (ns ++ [n]) k := by
  have hlen := h.lpos_eq
  rcases Nat.mod_two_eq_zero_or_one s.lpos.toNat with heven | hodd
  · rw [loadedNibble_of_even n heven, spelledByte_concat_of_even n (by omega)]
  · have hbyte : s.lbuf[k] = spelledByte ns k := h.lbuf_eq ⟨k, hk⟩ (by simp only; omega)
    rw [loadedNibble_of_odd n hk (by omega), spelledByte_concat_of_odd n (by omega), hbyte]

theorem Arch.HoldsNibbles.ldx {ns : List Nibble} {s : Arch} (h : s.HoldsNibbles ns) {c : Byte} {n : Nibble}
    (hn : hexVal c = some n) (hroom : ns.length < 70) : (ldxEffect c s).HoldsNibbles (ns ++ [n]) := by
  have hlen := h.lpos_eq
  rw [ldxEffect_of_digit hn h.lbad_eq (by omega)]
  refine ⟨h.lbad_eq, ?_, fun k hk => ?_⟩
  · rw [Arch.complete_lpos, Arch.setLpos_lpos, List.length_append, List.length_singleton]
    bv_omega
  · refine (memWriteLbuf_getElem s.lbuf _ k.val _ k.isLt).trans ?_
    rw [List.length_append, List.length_singleton] at hk
    split
    case isTrue hat => exact h.loadedNibble_eq n k.isLt hat.symm
    case isFalse hoff =>
      rw [spelledByte_concat_of_lt n (by omega)]
      exact h.lbuf_eq k (by omega)

/-- 70 nibbles fill the buffer. -/
theorem Arch.HoldsNibbles.lbuf_eq_spelledBytes {ns : List Nibble} {s : Arch} (h : s.HoldsNibbles ns)
    (hlen : ns.length = 70) : s.lbuf = spelledBytes ns := by
  refine Vector.ext fun k hk => ?_
  rw [spelledBytes, Vector.getElem_ofFn]
  exact h.lbuf_eq ⟨k, hk⟩ (by simp only; omega)

/-- Loading digits on top of others leaves all of them, and writes nothing but `LBUF`, `LPOS` and `LERR`. -/
theorem runCommands_ldxs {ms ns : List Nibble} {cs : List Byte} {s : State} (h : s.HoldsNibbles ms)
    (hcs : cs.map hexVal = ns.map some) (hlen : ms.length + ns.length ≤ 70) :
    ∃ t, runCommands (ldxs cs) s = .next t ∧ t.HoldsNibbles (ms ++ ns) ∧
      t = { s with lbuf := t.lbuf, lpos := t.lpos, lerr := t.lerr } := by
  induction cs generalizing ms ns s with
  | nil =>
    obtain rfl : ns = [] := by simpa using hcs.symm
    exact ⟨s, rfl, by simpa using h, rfl⟩
  | cons c cs ih =>
    obtain ⟨n, ns, rfl, hn, hns⟩ : ∃ n ns', ns = n :: ns' ∧ some n = hexVal c ∧ ns'.map some = cs.map hexVal :=
      List.map_eq_cons_iff.mp hcs.symm
    rw [List.length_cons] at hlen
    have hone : (perform (.ldx c) s.toArch).HoldsNibbles (ms ++ [n]) := h.ldx hn.symm (by omega)
    obtain ⟨t, hrun, hholds, hframe⟩ :=
      ih (s := { s with toArch := perform (.ldx c) s.toArch }) hone hns.symm (by simp; omega)
    refine ⟨t, (runCommands_cons (.ldx c) (ldxs cs) s).trans hrun, by simpa using hholds, hframe.trans ?_⟩
    have hlpos := h.lpos_eq
    rw [perform, ldxEffect_of_digit hn.symm h.lbad_eq (by omega)]
    rfl

/-- The architectural state after a good text of the nibbles `ns` was parsed into `D[e]`. -/
def Arch.parsed (e : DigestReg) (ns : List Nibble) (s : Arch) : Arch :=
  ((s.setLbuf (spelledBytes ns)).closeLoad.putDigest e (unwire (spelledBytes ns))).complete

theorem digest_parsed (e : DigestReg) (ns : List Nibble) (s : Arch) :
    (s.parsed e ns).digest e = unwire (spelledBytes ns) := by
  simp [Arch.parsed]

theorem valid_parsed (e : DigestReg) (ns : List Nibble) (s : Arch) : (s.parsed e ns).valid e = true := by
  simp [Arch.parsed]

theorem parsed_frame (e : DigestReg) (ns : List Nibble) (s : Arch) :
    (s.parsed e ns).loaderReady ∧ (s.parsed e ns).err = s.err ∧ (s.parsed e ns).lerr = 0 ∧
      (s.parsed e ns).sameAccumulator s ∧ (s.parsed e ns).sameResults s := by
  simp [Arch.parsed, Arch.loaderReady, Arch.sameAccumulator, Arch.sameResults]

theorem runCommands_parseText {ns : List Nibble} {cs : List Byte} {s : State} (e : DigestReg) (hready : s.loaderReady)
    (hlen : ns.length = 70) (hcs : cs.map hexVal = ns.map some) :
    runCommands (parseText e cs) s = .next { s with toArch := s.toArch.parsed e ns } := by
  obtain ⟨t, hrun, hholds, hframe⟩ :=
    runCommands_ldxs (Arch.HoldsNibbles.of_loaderReady hready) hcs (by simp [hlen])
  rw [List.nil_append] at hholds
  have hldc : perform (.ldc e) t.toArch = (t.closeLoad.putDigest e (unwire t.lbuf)).complete :=
    ldcEffect_of_complete e hholds.lbad_eq (hholds.lpos_eq.trans hlen)
  rw [parseText, runCommands_append hrun, runCommands_cons, hldc, hholds.lbuf_eq_spelledBytes hlen, hframe,
    hholds.lbuf_eq_spelledBytes hlen]
  cases e <;> rfl

/-- Settles O43. -/
theorem parseAcceptsSeventyDigits : Obligations.ParseAcceptsSeventyDigits := by
  intro cs ns e s hready hlen hcs
  obtain ⟨-, herr, hlerr, -⟩ := parsed_frame e ns s.toArch
  refine ⟨_, runCommands_parseText e hready hlen hcs, valid_parsed e ns s.toArch, hlerr, herr, fun k => ?_⟩
  have hbyte : (spelledBytes ns)[k] = spelledByte ns k.val := by simp [spelledBytes]
  rw [digest_parsed, wire_unwire, hbyte, spelledByte_toNat]

/-- Settles O42: the characters of the text spell the bytes of the wire format, which decode to the digest. -/
theorem textRoundTrip : Obligations.TextRoundTrip := by
  intro d e s hvalid hready
  refine ⟨text (s.digest d), text_length _, fun i => ?_, _,
    runCommands_parseText e hready (textNibbles_length _) (text_map_hexVal (s.digest d)), ?_, valid_parsed e _ s.toArch,
    parsed_frame e _ s.toArch⟩
  · have hi : (BitVec.ofNat 8 i.val).toNat = i.val := by rw [BitVec.toNat_ofNat]; omega
    rw [exec_eq, perform, rdxEffect_of_valid (by omega) hvalid, hi, text_getD _ i.isLt]
    rfl
  · rw [digest_parsed, spelledBytes_textNibbles, unwire_wire]

/-! ### Malformed texts -/

/-- No `LDX` writes a digest register or takes `LBAD` back, and as long as `LBAD` is 0 every character was a digit and moved
`LPOS` by one. -/
theorem runCommands_ldxs_cases (cs : List Byte) (s : State) :
    ∃ t, runCommands (ldxs cs) s = .next t ∧ t.sameDigests s.toArch ∧
      (t.lbad = false →
        s.lbad = false ∧ t.lpos.toNat = s.lpos.toNat + cs.length ∧ ∀ c ∈ cs, hexVal c ≠ none) := by
  induction cs generalizing s with
  | nil => exact ⟨s, rfl, ⟨rfl, rfl, rfl, rfl⟩, fun hgood => ⟨hgood, rfl, by simp⟩⟩
  | cons c cs ih =>
    obtain ⟨t, hrun, hsame, hgood⟩ := ih { s with toArch := perform (.ldx c) s.toArch }
    refine ⟨t, (runCommands_cons (.ldx c) (ldxs cs) s).trans hrun, ?_⟩
    rcases ldxEffect_cases c s.toArch with ⟨_, heq⟩ | ⟨n, hn, hlbad, hroom, heq⟩ <;> rw [perform, heq] at hsame hgood
    · exact ⟨hsame, fun ht => absurd (hgood ht).1 (by simp)⟩
    · refine ⟨hsame, fun ht => ?_⟩
      obtain ⟨-, hlpos, hdigits⟩ := hgood ht
      have hstep : (s.lpos + 1).toNat = s.lpos.toNat + 1 := by bv_omega
      refine ⟨hlbad, ?_, List.forall_mem_cons.mpr ⟨by simp [hn], hdigits⟩⟩
      rw [hlpos, List.length_cons, Arch.complete_lpos, Arch.setLpos_lpos, hstep]
      omega

/-- Settles O44: an `LDC` that committed would have had 70 digits in. -/
theorem parseRefusesMalformedText : Obligations.ParseRefusesMalformedText := by
  intro cs e s hready hmalformed
  obtain ⟨hlpos0, -⟩ := hready
  obtain ⟨t, hrun, hsame, hgood⟩ := runCommands_ldxs_cases cs s
  have hincomplete : t.lbad = true ∨ t.lpos.toNat ≠ 70 := by
    cases hlbad : t.lbad with
    | true => exact .inl rfl
    | false =>
      obtain ⟨-, hlpos, hdigits⟩ := hgood hlbad
      rcases hmalformed with hlen | ⟨c, hc, hnone⟩
      · exact .inr (by simpa [hlpos, hlpos0] using hlen)
      · exact absurd hnone (hdigits c hc)
  refine ⟨_, (runCommands_append hrun).trans (runCommands_cons (.ldc e) [] t), ?_⟩
  rw [perform, ldcEffect_of_incomplete e hincomplete]
  exact ⟨rfl, by rw [raise_err_getLsbD]; simp [FaultCode.code], hsame, rfl, rfl⟩

end Sys2Proof.Machine
end

section
/-! PROOFS. The terms of the distance (spec/44_comparator.md R133 to R139): each is symmetric, zero on equal operands only,
and bounded. -/

namespace Sys2Proof.Machine

/-! ### The circular distance -/

theorem absDiff_eq_natAbs (x y : Nat) : absDiff x y = ((x : ℤ) - y).natAbs := by
  unfold absDiff; split <;> omega

theorem absDiff_comm (x y : Nat) : absDiff x y = absDiff y x := by
  rw [absDiff_eq_natAbs, absDiff_eq_natAbs]; omega

theorem absDiff_eq_zero_iff {x y : Nat} : absDiff x y = 0 ↔ x = y := by
  rw [absDiff_eq_natAbs]; omega

theorem modDiff_comm (x y R : Nat) : modDiff x y R = modDiff y x R := by rw [modDiff, absDiff_comm, ← modDiff]

theorem modDiff_eq_zero_iff {x y R : Nat} (hx : x < R) (hy : y < R) : modDiff x y R = 0 ↔ x = y := by
  rw [modDiff, absDiff_eq_natAbs]; omega

theorem modDiff_le_half (x y R : Nat) : modDiff x y R ≤ R / 2 := by
  rw [modDiff]; omega

/-- Settles O46. -/
theorem modDiffProperties : Obligations.ModDiffProperties := by
  refine fun x y R hx hy => ⟨?_, modDiff_comm x y R, modDiff_eq_zero_iff hx hy, modDiff_le_half x y R⟩
  have hle : absDiff x y ≤ R := by rw [absDiff_eq_natAbs]; omega
  rw [modDiff, Nat.cast_min, Nat.cast_sub hle, absDiff_eq_natAbs, Int.natCast_natAbs]

/-! ### The length, ratio and checksum terms -/

theorem lenTerm_comm (a b : Digest) (l : Bool) : lenTerm a b l = lenTerm b a l := by
  rw [lenTerm, modDiff_comm, ← lenTerm]

@[simp] theorem lenTerm_false (a b : Digest) : lenTerm a b false = 0 := rfl

theorem lenTerm_true (a b : Digest) : lenTerm a b true =
    if modDiff a.lc.toNat b.lc.toNat 256 ≤ 1 then modDiff a.lc.toNat b.lc.toNat 256
    else 12 * modDiff a.lc.toNat b.lc.toNat 256 := rfl

theorem lenTerm_true_eq_zero_iff {a b : Digest} : lenTerm a b true = 0 ↔ a.lc = b.lc := by
  have hring : modDiff a.lc.toNat b.lc.toNat 256 = 0 ↔ a.lc.toNat = b.lc.toNat := modDiff_eq_zero_iff a.lc.isLt b.lc.isLt
  rw [← BitVec.toNat_inj, ← hring, lenTerm_true]
  split <;> omega

theorem lenTerm_le (a b : Digest) (l : Bool) : lenTerm a b l ≤ 1536 := by
  have hring := modDiff_le_half a.lc.toNat b.lc.toNat 256
  cases l with
  | false => exact Nat.zero_le _
  | true => rw [lenTerm_true]; split <;> omega

theorem ratioTerm_eq (x y : Nibble) : ratioTerm x y =
    if modDiff x.toNat y.toNat 16 ≤ 1 then modDiff x.toNat y.toNat 16 else 12 * (modDiff x.toNat y.toNat 16 - 1) := rfl

theorem ratioTerm_comm (x y : Nibble) : ratioTerm x y = ratioTerm y x := by rw [ratioTerm, modDiff_comm, ← ratioTerm]

theorem ratioTerm_eq_zero_iff {x y : Nibble} : ratioTerm x y = 0 ↔ x = y := by
  have hring : modDiff x.toNat y.toNat 16 = 0 ↔ x.toNat = y.toNat := modDiff_eq_zero_iff x.isLt y.isLt
  rw [← BitVec.toNat_inj, ← hring, ratioTerm_eq]
  split <;> omega

theorem ratioTerm_le (x y : Nibble) : ratioTerm x y ≤ 84 := by
  have hring := modDiff_le_half x.toNat y.toNat 16
  rw [ratioTerm_eq]
  split <;> omega

theorem eq_iff_nibbles {x y : Byte} : x = y ↔ highNibble x = highNibble y ∧ lowNibble x = lowNibble y := by
  refine ⟨fun h => h ▸ ⟨rfl, rfl⟩, fun ⟨hhigh, hlow⟩ => ?_⟩
  rw [← highNibble_append_lowNibble x, hhigh, hlow, highNibble_append_lowNibble]

theorem ckTerm_comm (a b : Digest) : ckTerm a b = ckTerm b a := by simp only [ckTerm, eq_comm]

theorem ckTerm_eq_zero_iff {a b : Digest} : ckTerm a b = 0 ↔ a.ck = b.ck := by simp [ckTerm]

theorem ckTerm_le (a b : Digest) : ckTerm a b ≤ 1 := by unfold ckTerm; split <;> omega

/-! ### The distance of two codes, of two bytes, and of two bodies -/

/-- `max(PD)` (R138). -/
def maxCodeDistance (P : PerCodeDistance) : Nat :=
  max (perCodeDistance P 1) (max (perCodeDistance P 2) (perCodeDistance P 3))

section CodeDistance

variable (P : PerCodeDistance)

theorem perCodeDistance_eq_ite (n : Nat) : perCodeDistance P n =
    if n = 0 then 0 else if n = 1 then P.excess1.val + 1 else if n = 2 then P.excess2.val + 1 else P.excess3.val + 1 := by
  match n with
  | 0 | 1 | 2 | _ + 3 => rfl

theorem perCodeDistance_eq_zero_iff {n : Nat} : perCodeDistance P n = 0 ↔ n = 0 := by
  match n with
  | 0 => exact iff_of_true rfl rfl
  | 1 | 2 | _ + 3 => exact iff_of_false (Nat.succ_ne_zero _) (Nat.succ_ne_zero _)

theorem perCodeDistance_le_max (n : Nat) : perCodeDistance P n ≤ maxCodeDistance P := by
  match n with
  | 0 => exact Nat.zero_le _
  | 1 => exact le_max_left _ _
  | 2 => exact le_max_of_le_right (le_max_left _ _)
  | _ + 3 => exact le_max_of_le_right (le_max_right _ _)

theorem maxCodeDistance_le : maxCodeDistance P ≤ 15 :=
  max_le P.excess1.isLt (max_le P.excess2.isLt P.excess3.isLt)

theorem codeDistance_comm (u v : BitVec 2) : codeDistance P u v = codeDistance P v u := by
  rw [codeDistance, absDiff_comm, ← codeDistance]

theorem codeDistance_eq_zero_iff {u v : BitVec 2} : codeDistance P u v = 0 ↔ u = v := by
  rw [codeDistance, perCodeDistance_eq_zero_iff, absDiff_eq_zero_iff, BitVec.toNat_inj]

theorem bitPairDistance_eq_sum (x y : Byte) : bitPairDistance P x y =
    ∑ j : Fin 4, codeDistance P (x.extractLsb' (2 * j.val) 2) (y.extractLsb' (2 * j.val) 2) := by
  rw [← Fin.sum_ofFn]; rfl

theorem extractLsb'_pair_toNat (x : Byte) (j : Nat) : (x.extractLsb' (2 * j) 2).toNat = x.toNat / 4 ^ j % 4 := by
  rw [BitVec.extractLsb'_toNat, Nat.shiftRight_eq_div_pow, pow_mul]; rfl

/-- The bytes are numbers of four digits in base 4. -/
theorem eq_iff_pairs {x y : Byte} : x = y ↔ ∀ j : Fin 4, x.extractLsb' (2 * j.val) 2 = y.extractLsb' (2 * j.val) 2 := by
  refine ⟨fun h _ => h ▸ rfl, fun h => BitVec.eq_of_toNat_eq ?_⟩
  have hx := x.isLt
  have hy := y.isLt
  simp only [← BitVec.toNat_inj, extractLsb'_pair_toNat, Fin.forall_fin_succ, Fin.val_zero, Fin.val_succ] at h
  omega

theorem bitPairDistance_comm (x y : Byte) : bitPairDistance P x y = bitPairDistance P y x := by
  rw [bitPairDistance_eq_sum, bitPairDistance_eq_sum]
  exact Finset.sum_congr rfl fun j _ => codeDistance_comm P _ _

theorem bitPairDistance_eq_zero_iff {x y : Byte} : bitPairDistance P x y = 0 ↔ x = y := by
  simp only [bitPairDistance_eq_sum, Finset.sum_eq_zero_iff, Finset.mem_univ, forall_const, codeDistance_eq_zero_iff,
    eq_iff_pairs]

theorem bitPairDistance_le (x y : Byte) : bitPairDistance P x y ≤ 4 * maxCodeDistance P := by
  rw [bitPairDistance_eq_sum]
  exact Finset.sum_le_card_nsmul _ _ _ fun j _ => perCodeDistance_le_max P _

theorem sum_zipWith_toList {n : Nat} (f : Byte → Byte → Nat) (v w : Vector Byte n) :
    (List.zipWith f v.toList w.toList).sum = ∑ k : Fin n, f v[k] w[k] := by
  have hlist : List.zipWith f v.toList w.toList = List.ofFn fun k : Fin n => f v[k] w[k] :=
    List.ext_getElem (by simp) fun i _ _ => by simp
  rw [hlist, Fin.sum_ofFn]

theorem bodyTerm_eq_sum (a b : Digest) : bodyTerm P a b = ∑ k : Fin 32, bitPairDistance P a.body[k] b.body[k] :=
  sum_zipWith_toList (bitPairDistance P) a.body b.body

theorem bodyTerm_comm (a b : Digest) : bodyTerm P a b = bodyTerm P b a := by
  rw [bodyTerm_eq_sum, bodyTerm_eq_sum]
  exact Finset.sum_congr rfl fun k _ => bitPairDistance_comm P _ _

theorem bodyTerm_eq_zero_iff {a b : Digest} : bodyTerm P a b = 0 ↔ a.body = b.body := by
  simp only [bodyTerm_eq_sum, Finset.sum_eq_zero_iff, Finset.mem_univ, forall_const, bitPairDistance_eq_zero_iff]
  exact ⟨fun h => Vector.ext fun i hi => h ⟨i, hi⟩, fun h _ => h ▸ rfl⟩

theorem bodyTerm_le (a b : Digest) : bodyTerm P a b ≤ 128 * maxCodeDistance P := by
  rw [bodyTerm_eq_sum, show 128 = 32 * 4 from rfl, mul_assoc]
  exact Finset.sum_le_card_nsmul _ _ _ fun k _ => bitPairDistance_le P _ _

end CodeDistance

/-- Settles O47. -/
theorem bitPairTableProperties : Obligations.BitPairTableProperties := fun P x y =>
  ⟨bitPairDistance_comm P x y, bitPairDistance_eq_zero_iff P, bitPairDistance_le P x y,
    bitPairDistance_le Config.defaultPd x y⟩

end Sys2Proof.Machine
end

section
/-! PROOFS. The distance and `CMP` (spec/44_comparator.md R140 to R143): symmetry, zeros and range from those of the terms,
and what `CMP` stores. -/

namespace Sys2Proof.Machine

section Distance

variable (P : PerCodeDistance)

theorem distance_comm (a b : Digest) (l : Bool) : distance P a b l = distance P b a l := by
  rw [distance, lenTerm_comm, ratioTerm_comm (highNibble a.qr), ratioTerm_comm (lowNibble a.qr), ckTerm_comm, bodyTerm_comm,
    ← distance]

theorem distance_eq_zero_iff {a b : Digest} {l : Bool} : distance P a b l = 0 ↔
    lenTerm a b l = 0 ∧ a.ck = b.ck ∧ a.qr = b.qr ∧ a.body = b.body := by
  rw [eq_iff_nibbles (x := a.qr), ← ckTerm_eq_zero_iff, ← ratioTerm_eq_zero_iff, ← ratioTerm_eq_zero_iff,
    ← bodyTerm_eq_zero_iff P, distance]
  omega

theorem distance_false_eq_zero_iff {a b : Digest} :
    distance P a b false = 0 ↔ a.ck = b.ck ∧ a.qr = b.qr ∧ a.body = b.body := by
  rw [distance_eq_zero_iff, lenTerm_false]
  exact and_iff_right rfl

theorem distance_true_eq_zero_iff {a b : Digest} : distance P a b true = 0 ↔ a = b := by
  rw [distance_eq_zero_iff, lenTerm_true_eq_zero_iff]
  refine ⟨fun ⟨hlc, hck, hqr, hbody⟩ => ?_, fun h => h ▸ ⟨rfl, rfl, rfl, rfl⟩⟩
  cases a; cases b; cases hlc; cases hck; cases hqr; cases hbody; rfl

theorem distance_self (a : Digest) (l : Bool) : distance P a a l = 0 := by
  cases l with
  | false => exact (distance_false_eq_zero_iff P).mpr ⟨rfl, rfl, rfl⟩
  | true => exact (distance_true_eq_zero_iff P).mpr rfl

/-- The sum of the bounds of the terms: `1536 + 2 * 84 + 1` and the body's (R141). -/
theorem distance_le (a b : Digest) (l : Bool) : distance P a b l ≤ 1705 + 128 * maxCodeDistance P := by
  have hlen := lenTerm_le a b l
  have hq1 := ratioTerm_le (highNibble a.qr) (highNibble b.qr)
  have hq2 := ratioTerm_le (lowNibble a.qr) (lowNibble b.qr)
  have hck := ckTerm_le a b
  have hbody := bodyTerm_le P a b
  unfold distance
  omega

theorem distance_le_of_legal (a b : Digest) (l : Bool) : distance P a b l ≤ 3625 := by
  have hmax := maxCodeDistance_le P
  have hle := distance_le P a b l
  omega

end Distance

/-- Settles O48. -/
theorem distanceSymmetryAndZeros : Obligations.DistanceSymmetryAndZeros := fun P a b =>
  ⟨distance_comm P a b, distance_self P a, distance_true_eq_zero_iff P, distance_false_eq_zero_iff P⟩

/-- Settles O49: the largest default `PD` is 6, and the comparator evaluates to the bound on the two digests. -/
theorem distanceRange : Obligations.DistanceRange :=
  ⟨distance_le_of_legal, distance_le Config.defaultPd, by decide⟩

/-- The body term over the codes of the two bodies, each code a base-4 digit of its byte. -/
theorem bodyTerm_eq_sum_pairs (P : PerCodeDistance) (a b : Digest) : bodyTerm P a b =
    ∑ k : Fin 32, ∑ j : Fin 4, perCodeDistance P
      ((a.body[k].toNat / 4 ^ j.val % 4 : ℤ) - (b.body[k].toNat / 4 ^ j.val % 4 : ℤ)).natAbs := by
  simp only [bodyTerm_eq_sum, bitPairDistance_eq_sum, codeDistance, extractLsb'_pair_toNat, absDiff_eq_natAbs]
  push_cast
  rfl

theorem cmpEffect_of_valid (P : PerCodeDistance) (l : Bool) {s : Arch} (h0 : s.dv0 = true) (h1 : s.dv1 = true) :
    cmpEffect P l s = (s.setDist (BitVec.ofNat 16 (distance P s.d0 s.d1 l))).complete := by
  simp [cmpEffect, h0, h1]

theorem cmpEffect_of_invalid (P : PerCodeDistance) (l : Bool) {s : Arch} (h : s.dv0 = false ∨ s.dv1 = false) :
    cmpEffect P l s = s.raise .invalid := by
  rcases h with h | h <;> simp [cmpEffect, h]

/-- The distance fits the 16 bits of `DIST` (R141). -/
theorem ofNat_distance_toNat (P : PerCodeDistance) (a b : Digest) (l : Bool) :
    (BitVec.ofNat 16 (distance P a b l)).toNat = distance P a b l := by
  have hle := distance_le_of_legal P a b l
  rw [BitVec.toNat_ofNat]
  omega

/-- Settles O45. -/
theorem cmpStoresDistance : Obligations.CmpStoresDistance := by
  refine fun l s => ⟨fun h0 h1 => ⟨_, exec_eq (.cmp l) s, ?_⟩, fun hinvalid => ?_⟩
  · rw [perform, cmpEffect_of_valid configuredPd l h0 h1]
    refine ⟨(ofNat_distance_toNat configuredPd s.d0 s.d1 l).trans ?_, rfl⟩
    simp only [distance, lenTerm, ratioTerm_eq, ckTerm, bodyTerm_eq_sum_pairs, perCodeDistance_eq_ite, modDiff,
      absDiff_eq_natAbs, highNibble_toNat, lowNibble_toNat, configuredPd]
    cases l <;> simp
  · rw [exec_eq, perform, cmpEffect_of_invalid configuredPd l hinvalid]
    rfl

end Sys2Proof.Machine
end

section
/-! PROOFS. The faults of every command (spec/60_exceptions.md R149 to R153, R162, R163): a command completes, or it raises the
fault of the legality matrix and leaves nothing but its record. -/

namespace Sys2Proof.Machine

/-- The state in which a faulting command raises its fault: `s`, but a load step has spoiled its load and `LDC` has closed it
(R150). -/
def abandon (i : Instr) (s : Arch) : Arch :=
  match i with
  | .ldb _ => s.setLbad true
  | .ldx _ => s.setLbad true
  | .ldc _ => s.closeLoad
  | _ => s

@[simp] theorem abandon_err (i : Instr) (s : Arch) : (abandon i s).err = s.err := by cases i <;> rfl

/-- The two ends of a command, told apart by the legality matrix (R163, R149). -/
theorem perform_completes_or_raises (i : Instr) (s : Arch) :
    (matrixFault i s = none ∧ (perform i s).lerr = 0 ∧ (perform i s).err = s.err) ∨
    (∃ c, matrixFault i s = some c ∧ perform i s = (abandon i s).raise c) := by
  cases i with
  | nop => exact .inl ⟨rfl, rfl, rfl⟩
  | clr => exact .inl ⟨rfl, rfl, rfl⟩
  | hrd k => exact .inl ⟨rfl, rfl, rfl⟩
  | feed b =>
    rcases feedEffect_cases memReadSbox b s with ⟨hphase, h⟩ | ⟨hphase, hlen, h⟩ | ⟨hphase, hlen, h⟩
    · exact .inr ⟨.phase, by simp [matrixFault, hphase], h⟩
    · exact .inr ⟨.overflow, by simp [matrixFault, hphase, hlen], h⟩
    · exact .inl ⟨by simp [matrixFault, hphase]; omega, by simp [perform, h]⟩
  | fin d =>
    rcases finEffect_cases d s with ⟨hphase, h⟩ | ⟨hphase, h⟩
    · exact .inr ⟨.phase, by simp [matrixFault, hphase], h⟩
    · exact .inl ⟨by simp [matrixFault, hphase], by simp [perform, h]⟩
  | ldb v =>
    rcases ldbEffect_cases v s with ⟨hbad, h⟩ | ⟨hlbad, heven, hlt, h⟩
    · exact .inr ⟨.parse, if_pos hbad, h⟩
    · exact .inl ⟨by simp [matrixFault, hlbad, heven, hlt], by simp [perform, h]⟩
  | ldx c =>
    rcases ldxEffect_cases c s with ⟨hbad, h⟩ | ⟨n, hdigit, hlbad, hlt, h⟩
    · rw [hexVal_eq_none_iff] at hbad
      exact .inr ⟨.parse, if_pos hbad, h⟩
    · have hcode : c.toNat ∈ hexDigitCodes := by
        by_contra hnot
        simp [(hexVal_eq_none_iff c).mpr hnot] at hdigit
      exact .inl ⟨by simp [matrixFault, hlbad, hcode, hlt], by simp [perform, h]⟩
  | ldc d =>
    rcases ldcEffect_cases d s with ⟨hlbad, hlpos, h⟩ | ⟨hbad, h⟩
    · exact .inl ⟨by simp [matrixFault, hlbad, hlpos], by simp [perform, h]⟩
    · exact .inr ⟨.parse, if_pos hbad, h⟩
  | rdb d k =>
    rcases rdbEffect_cases d k s with ⟨hk, h⟩ | ⟨hk, hvalid, h⟩ | ⟨hk, hvalid, h⟩
    · exact .inr ⟨.index, if_pos hk, h⟩
    · exact .inr ⟨.invalid, by simp [matrixFault, hk, hvalid], h⟩
    · exact .inl ⟨by simp [matrixFault, hk, hvalid], by simp [perform, h]⟩
  | rdx d k =>
    rcases rdxEffect_cases d k s with ⟨hk, h⟩ | ⟨hk, hvalid, h⟩ | ⟨hk, hvalid, h⟩
    · exact .inr ⟨.index, if_pos hk, h⟩
    · exact .inr ⟨.invalid, by simp [matrixFault, hk, hvalid], h⟩
    · exact .inl ⟨by simp [matrixFault, hk, hvalid], by simp [perform, h]⟩
  | cmp l =>
    rcases cmpEffect_cases configuredPd l s with ⟨hinvalid, h⟩ | ⟨h0, h1, h⟩
    · exact .inr ⟨.invalid, if_pos hinvalid, h⟩
    · exact .inl ⟨by simp [matrixFault, h0, h1], by simp [perform, h]⟩

/-- Settles O50: a command that raises `c` writes the code of `c` and adds its bit, as every `raise` does. -/
theorem faultsFollowLegalityMatrix : Obligations.FaultsFollowLegalityMatrix := by
  refine fun i s => ⟨_, exec_eq i s, ?_⟩
  rcases perform_completes_or_raises i s.toArch with ⟨hnone, hends⟩ | ⟨c, hsome, hraise⟩
  · simpa [hnone] using hends
  · simp [hsome, hraise, errBit_getLsbD]

/-- Settles O51: what a faulting command leaves is `abandon` and the record of its fault. -/
theorem faultsArePrecise : Obligations.FaultsArePrecise := by
  intro i s t hexec
  cases exec_next.mp hexec
  rcases perform_completes_or_raises i s.toArch with ⟨_, hlerr, herr⟩ | ⟨c, _, hraise⟩
  · exact ⟨fun hne => absurd hlerr hne, fun _ => herr⟩
  · simp only [hraise]
    exact ⟨fun _ => ⟨(code_range c).2, by cases i <;> rfl⟩, fun h => absurd h (code_ne_zero c)⟩

/-! ### What only reset clears -/

theorem raise_err_of_set (c : FaultCode) {s : Arch} {k : Nat} (hk : s.err.getLsbD k = true) :
    (s.raise c).err.getLsbD k = true := by
  simp [hk]

theorem perform_err_of_set (i : Instr) {s : Arch} {k : Nat} (hk : s.err.getLsbD k = true) :
    (perform i s).err.getLsbD k = true := by
  rcases perform_completes_or_raises i s with ⟨_, _, herr⟩ | ⟨c, _, hraise⟩
  · rw [herr, hk]
  · rw [hraise]
    exact raise_err_of_set c (by rw [abandon_err, hk])

/-- Settles O52: without `rst` the hardware is kept, runs a command, or raises `ILLEGAL`. -/
theorem errClearedOnlyByReset : Obligations.ErrClearedOnlyByReset := by
  intro s t hnorst hstep
  rcases step_cases s with ⟨_, heq⟩ | ⟨rest, hrst, heq⟩ | ⟨_, _, _, heq⟩ | ⟨_, _, i, _, _, heq⟩ | ⟨_, _, _, _, _, heq⟩ <;>
    cases heq.symm.trans hstep
  · exact ⟨fun _ => id, fun _ => id⟩
  · exact absurd hrst (hnorst rest)
  · exact ⟨fun _ => id, fun _ => id⟩
  · refine ⟨fun _ => perform_err_of_set i, fun d => ?_⟩
    obtain ⟨_, _, _, hvalid⟩ := digestWriters i s _ d (exec_eq i s)
    exact hvalid
  · exact ⟨fun _ => raise_err_of_set .illegal, fun d => (Arch.valid_raise _ d _).trans⟩

/-- Settles O8: every case of a step and every command names its next state. -/
theorem everyStepAnswersNext : Obligations.EveryStepAnswersNext := by
  refine ⟨fun s => ?_, fun i s => ⟨_, exec_eq i s⟩⟩
  rcases step_cases s with ⟨_, h⟩ | ⟨_, _, h⟩ | ⟨_, _, _, h⟩ | ⟨_, _, _, _, _, h⟩ | ⟨_, _, _, _, _, h⟩ <;> exact ⟨_, h⟩

end Sys2Proof.Machine
end

section
/-! PROOFS. The step of the port actions that issue no command, and of an idle engine (spec/70_reset_and_hazards.md R165,
spec/60_exceptions.md R161). With `step_of_issue` these are the rules of `step`, one for each thing the host can do. -/

namespace Sys2Proof.Machine

theorem step_of_idle {s : State} (hpending : s.pending = []) : step s = .next s := by
  simp [step, nextAction_nil hpending, holdState]

theorem step_of_rst {s : State} {rest : List HostAction} (hpending : s.pending = .rst :: rest) :
    step s = .next (State.reset.setPending rest) := by
  simp only [step, nextAction_cons hpending]
  rfl

theorem step_of_readStatus {s : State} {n : BitVec 3} {rest : List HostAction}
    (hpending : s.pending = .readStatus n :: rest) : step s = .next (s.setPending rest) := by
  simp only [step, nextAction_cons hpending, holdState]

/-- Settles O10: one rule of `step` for each clause. -/
theorem hostResetAndIdleSteps : Obligations.HostResetAndIdleSteps :=
  ⟨fun _ _ => step_of_rst, fun _ _ _ => step_of_readStatus, fun _ => step_of_idle, State.reset_pending⟩

end Sys2Proof.Machine
end
